-- ==== Sys2Proof/Word.lean ====
section
/-! DEFINITION. The word types of CORE: bytes, 9-byte frames, 5-byte payloads, bindings and result codes. -/

namespace Sys2Proof

/-- A byte: 8 bits, unsigned (00_scope.md R13). -/
abbrev Byte := BitVec 8

/-- The identity of a transfer-function binding (R12), opaque to CORE, which only tests whether one is present.
The number has no meaning of its own (log entry 13). -/
structure XferRef where
  id : Nat
  deriving DecidableEq, Repr

/-- A frame: exactly 9 bytes, `f[i]` being field `b<i>` (R14, R56). -/
structure Frame where
  b0 : Byte
  b1 : Byte
  b2 : Byte
  b3 : Byte
  b4 : Byte
  b5 : Byte
  b6 : Byte
  b7 : Byte
  b8 : Byte
  deriving DecidableEq, Repr

/-- The five payload bytes `p[0..4]` of a request (R30, R68). -/
structure Payload where
  p0 : Byte
  p1 : Byte
  p2 : Byte
  p3 : Byte
  p4 : Byte
  deriving DecidableEq, Repr

/-- The result codes (R15, R99). `invalidResponse` belongs to the set only under
`RESPONSE_CHECK_POLICY = INVALID_RESPONSE` (Machine/Flags.lean `inResultSet`). -/
inductive ResultCode where
  | success
  | alreadyInitialized
  | notInitialized
  | badParameter
  | generalError
  | ioError
  | invalidResponse
  deriving DecidableEq, Repr

end Sys2Proof
end

