-- ==== Sys2Proof/Config.lean ====
section
/-! DEFINITION. The four implementation parameters of CORE (00_scope.md R8 to R11) and their values at reset. -/

namespace Sys2Proof

/-- `RESPONSE_CHECK_POLICY` (R9): what GET_GAS reports when a frame it read fails validation. -/
inductive ResponsePolicy where
  | permissive
  | generalError
  | invalidResponse
  deriving DecidableEq, Repr, Inhabited

/-- `GUARD_ORDER` (R11): which result wins when the lifecycle check and a parameter check both fail. -/
inductive GuardOrder where
  | stateFirst
  | paramFirst
  deriving DecidableEq, Repr, Inhabited

/-- The parameters a model takes as an argument (R8 to R11). State carries them in one field that no step changes. -/
structure Config where
  /-- `ABC_ON` (R8). -/
  abcOn : Byte
  /-- `RESPONSE_CHECK_POLICY` (R9). -/
  policy : ResponsePolicy
  /-- `ACCEPT_RANGE_IN_SEND` (R10). -/
  acceptRange : Bool
  /-- `GUARD_ORDER` (R11). -/
  guardOrder : GuardOrder
  deriving DecidableEq, Repr

/-- `ABC_ON` of the machine at hand, which the source never gives (R8, N4): no body, so nothing can be proved of it
(DESIGN CHOICE, log entry 3). -/
opaque Config.abcOnValue : Byte

/-- `GUARD_ORDER` of the machine at hand, left OPEN (R11, N18): no body (DESIGN CHOICE, log entry 3). -/
opaque Config.guardOrderValue : GuardOrder

/-- The machine as the spec fixes it: the two normative values (R9 PERMISSIVE, R10 false) and the two open ones. -/
def Config.normative : Config :=
  { abcOn := Config.abcOnValue
    policy := .permissive
    acceptRange := false
    guardOrder := Config.guardOrderValue }

end Sys2Proof
end

