-- ==== Sys2Proof/Syntax.lean ====
section
/-! DEFINITION. What stands on CORE's ports (a request, an outbound frame, an inbound frame) and the instructions they
spell: one constructor of Instr per row of spec/opcode_table.json. -/

namespace Sys2Proof

/-- The request port's fields (10_state.md R30). A field left out of a literal is zero, or no binding. -/
structure ReqPort where
  op : BitVec 4
  xfer : Option XferRef := none
  present : Bool := false
  code : Byte := 0
  size : Byte := 0
  payload : BitVec 40 := 0
  span : BitVec 16 := 0
  abc : Bool := false
  range : Byte := 0
  frame : BitVec 72 := 0
  deriving DecidableEq, Repr

/-- What the decoder reads: the word on one of CORE's ports. The direction of a transfer (`x.kind`, R32) tells an
outbound frame from an inbound one (log entry 5). -/
inductive PortWord where
  /-- a request on the request port (R30) -/
  | request (r : ReqPort)
  /-- `x.tx` of a write transfer (R32, R57) -/
  | linkWrite (tx : Frame)
  /-- `x.rx` of a read transfer (R32, R58) -/
  | linkRead (rx : Frame)
  deriving DecidableEq, Repr

/-- Why an outbound frame is no row of the table: its fixed bytes differ (R57). -/
inductive DecodeError where
  /-- offset 0 is not `START` -/
  | badStartMarker
  /-- offset 1 of an outbound frame is not `DEVICE` -/
  | badDeviceByte
  deriving DecidableEq, Repr

/-- One constructor per row of spec/opcode_table.json, in the table's order. -/
inductive Instr where
  /-- INIT, format I (R90) -/
  | init (x : Option XferRef)
  /-- GET_GAS, format G (R91) -/
  | getGas (present : Bool)
  /-- CAL_ZERO, format N (R92) -/
  | calZero
  /-- CAL_SPAN, format S (R93) -/
  | calSpan (v : BitVec 16)
  /-- SET_ABC, format A (R94) -/
  | setAbc (e : Bool)
  /-- SET_RANGE, format R (R95) -/
  | setRange (r : Byte)
  /-- SEND, format C (R96) -/
  | send (k : Byte) (pp : Bool) (n : Byte) (p : Payload)
  /-- op-select 0x7 (R66) -/
  | reserved7
  /-- CKSUM, format F (R83) -/
  | cksum (f : Frame)
  /-- VALIDATE, format F (R84) -/
  | validate (f : Frame)
  /-- BUILD, format C (R85) -/
  | build (k : Byte) (pp : Bool) (n : Byte) (p : Payload)
  /-- PARSE, format F (R86) -/
  | parse (f : Frame)
  /-- op-select 0xC (R66) -/
  | reservedC
  /-- op-select 0xD (R66) -/
  | reservedD
  /-- op-select 0xE (R66) -/
  | reservedE
  /-- op-select 0xF (R66) -/
  | reservedF
  /-- FRAME.REQUEST: any outbound frame that no narrower row spells (R57) -/
  | frameRequest (k : Byte) (p : Payload) (c : Byte)
  /-- FRAME.GET_GAS (R60) -/
  | frameGetGas
  /-- FRAME.CAL_ZERO (R60) -/
  | frameCalZero
  /-- FRAME.CAL_SPAN: span bits `s`, checksum `c` (R60) -/
  | frameCalSpan (s : BitVec 16) (c : Byte)
  /-- FRAME.SET_ABC: the ABC byte `a`, checksum `c` (R60) -/
  | frameSetAbc (a : Byte) (c : Byte)
  /-- FRAME.SET_RANGE: the 32-bit range value `r`, checksum `c` (R60) -/
  | frameSetRange (r : BitVec 32) (c : Byte)
  /-- FRAME.RESPONSE: the 9 bytes LINK hands over on a read, validated by the meaning (R58, R63) -/
  | frameResponse (g : Frame)
  deriving DecidableEq, Repr

end Sys2Proof
end

