-- ==== Sys2Proof/Machine/Operands.lean ====
section
/-! DEFINITION. Operand forms: the fixed constants (R7), the byte splits and joins of frames and payloads (R14, R68),
the op-select numbers (R65), the range selector (R61), the numbers of the result codes (R99). -/

namespace Sys2Proof

/-- `FRAME_LEN` (R7). -/
def frameLen : Nat := 9
/-- `MAX_PAYLOAD` (R7). -/
def maxPayload : Nat := 5
/-- `START`, frame byte 0 (R7). -/
def startMarker : Byte := 0xFF
/-- `DEVICE`, frame byte 1 of every outbound frame (R7). -/
def deviceByte : Byte := 0x01
/-- `CMD_GAS` (R7, R59). -/
def cmdGas : Byte := 0x86
/-- `CMD_ZERO` (R7, R59). -/
def cmdZero : Byte := 0x87
/-- `CMD_SPAN` (R7, R59). -/
def cmdSpan : Byte := 0x88
/-- `CMD_ABC` (R7, R59). -/
def cmdAbc : Byte := 0x79
/-- `CMD_RANGE` (R7, R59). -/
def cmdRange : Byte := 0x99

/-- The op-select of GET_GAS (R65), which the completion of a write looks for in OPL (R27, R91). -/
def opGetGas : BitVec 4 := 0x1
/-- The op-select of SEND (R65). -/
def opSend : BitVec 4 := 0x6

/-- Byte `f[i]` of a frame (R14). -/
def Frame.get (f : Frame) : Fin 9 → Byte
  | 0 => f.b0
  | 1 => f.b1
  | 2 => f.b2
  | 3 => f.b3
  | 4 => f.b4
  | 5 => f.b5
  | 6 => f.b6
  | 7 => f.b7
  | 8 => f.b8

/-- A frame from its 72-bit value: `f[i] = F[71-8i : 64-8i]` (R14, R68). -/
def Frame.ofBits (F : BitVec 72) : Frame :=
  { b0 := F.extractLsb' 64 8
    b1 := F.extractLsb' 56 8
    b2 := F.extractLsb' 48 8
    b3 := F.extractLsb' 40 8
    b4 := F.extractLsb' 32 8
    b5 := F.extractLsb' 24 8
    b6 := F.extractLsb' 16 8
    b7 := F.extractLsb' 8 8
    b8 := F.extractLsb' 0 8 }

/-- The 72-bit value of a frame, `f[0]` most significant (R14). -/
def Frame.toBits (f : Frame) : BitVec 72 :=
  f.b0 ++ f.b1 ++ f.b2 ++ f.b3 ++ f.b4 ++ f.b5 ++ f.b6 ++ f.b7 ++ f.b8

/-- Payload byte `p[j] = req.payload[39-8j : 32-8j]` (R68). -/
def Payload.ofBits (P : BitVec 40) : Payload :=
  { p0 := P.extractLsb' 32 8
    p1 := P.extractLsb' 24 8
    p2 := P.extractLsb' 16 8
    p3 := P.extractLsb' 8 8
    p4 := P.extractLsb' 0 8 }

/-- The 40 bits of `req.payload`, `p[0]` in bits 39:32 (R30). -/
def Payload.toBits (p : Payload) : BitVec 40 :=
  p.p0 ++ p.p1 ++ p.p2 ++ p.p3 ++ p.p4

/-- The payload of a command that carries none. -/
def Payload.zero : Payload := ⟨0, 0, 0, 0, 0⟩

/-- The high byte of a u16 (R68). -/
def hiByte (v : BitVec 16) : Byte := v.extractLsb' 8 8
/-- The low byte of a u16 (R68). -/
def loByte (v : BitVec 16) : Byte := v.extractLsb' 0 8

/-- A span value as payload: big-endian in `p[0]`, `p[1]` (R68, R93). -/
def spanPayload (v : BitVec 16) : Payload := ⟨hiByte v, loByte v, 0, 0, 0⟩

/-- The ABC byte as payload (R94). -/
def abcPayload (b : Byte) : Payload := ⟨b, 0, 0, 0, 0⟩

/-- A 32-bit range value as payload: `p[0] = 0`, then the value big-endian (R68, R95). -/
def rangePayload (v : BitVec 32) : Payload :=
  ⟨0, v.extractLsb' 24 8, v.extractLsb' 16 8, v.extractLsb' 8 8, v.extractLsb' 0 8⟩

/-- The range a selector names (R61); selectors 3 to 255 name none. -/
def rangeValue (r : Byte) : Option (BitVec 32) :=
  if r = 0 then some 2000
  else if r = 1 then some 5000
  else if r = 2 then some 10000
  else none

/-- The number of a result code on `resp.status` (R99). -/
def ResultCode.toBits : ResultCode → BitVec 3
  | .success => 0
  | .alreadyInitialized => 1
  | .notInitialized => 2
  | .badParameter => 3
  | .generalError => 4
  | .ioError => 5
  | .invalidResponse => 6

/-- The result code a number on `resp.status` stands for; 7 is unused (R99). -/
def ResultCode.ofBits (v : BitVec 3) : Option ResultCode :=
  if v = 0 then some .success
  else if v = 1 then some .alreadyInitialized
  else if v = 2 then some .notInitialized
  else if v = 3 then some .badParameter
  else if v = 4 then some .generalError
  else if v = 5 then some .ioError
  else if v = 6 then some .invalidResponse
  else none

end Sys2Proof
end

