-- ==== Sys2Proof/Machine/Codec.lean ====
section
/-! DEFINITION. The four combinational sub-blocks of CORE as pure functions (40_codec_primitives.md R71 to R77): checksum
unit, frame validator, command encoder, response parser; and the frame patterns of R60 and R70. -/

namespace Sys2Proof.Machine

/-- The 8-bit sum of bytes 1 to 7, wrapping (R72). -/
def bodySum (f : Frame) : Byte :=
  f.b1 + f.b2 + f.b3 + f.b4 + f.b5 + f.b6 + f.b7

/-- `cksum(f)` (R72, conflict C3): the two's-complement negation of the 8-bit sum. -/
def cksum (f : Frame) : Byte := ~~~(bodySum f) + 1

/-- `valid(f)` (R73): the start marker and the stored checksum; offsets 1 and 2 are compared with nothing. -/
def valid (f : Frame) : Bool := f.b0 == startMarker && f.b8 == cksum f

/-- `accepted(k)` (R74, conflict C1) under the parameter `ACCEPT_RANGE_IN_SEND`. -/
def accepted (acceptRange : Bool) (k : Byte) : Bool :=
  k == cmdGas || k == cmdZero || k == cmdSpan || k == cmdAbc || (acceptRange && k == cmdRange)

/-- `ppm_of(f)` (R75): offsets 2 and 3, big-endian, not validated. -/
def ppmOf (f : Frame) : BitVec 16 := (f.b2.setWidth 16 <<< 8) ||| f.b3.setWidth 16

/-- Write the checksum at offset 8 (the last step of R76). -/
def sealFrame (f : Frame) : Frame := { f with b8 := cksum f }

/-- `assemble(k, p, n)` (R76); defined for `n <= 5`, which every caller establishes. -/
def assemble (k : Byte) (p : Payload) (n : Nat) : Frame :=
  sealFrame
    { b0 := startMarker
      b1 := deviceByte
      b2 := k
      b3 := if 0 < n then p.p0 else 0
      b4 := if 1 < n then p.p1 else 0
      b5 := if 2 < n then p.p2 else 0
      b6 := if 3 < n then p.p3 else 0
      b7 := if 4 < n then p.p4 else 0
      b8 := 0 }

/-- `guard(k, pp, n)` (R77): `none` is Ok. -/
def encoderGuard (acceptRange : Bool) (k : Byte) (pp : Bool) (n : Byte) : Option ResultCode :=
  if accepted acceptRange k = false then some .badParameter
  else if (pp == false) != (n == 0) then some .badParameter
  else if maxPayload < n.toNat then some .badParameter
  else none

/-- The command codes of R59. -/
def knownCommand (k : Byte) : Bool := accepted true k

/-- R70: a frame CORE could have written. -/
def couldHaveWritten (f : Frame) : Bool :=
  f.b0 == startMarker && f.b1 == deviceByte && knownCommand f.b2 && f.b8 == cksum f

/-- FRAME.REQUEST (R57). -/
def requestFrame (k : Byte) (p : Payload) (c : Byte) : Frame :=
  ⟨startMarker, deviceByte, k, p.p0, p.p1, p.p2, p.p3, p.p4, c⟩

/-- FRAME.GET_GAS (R60). -/
def getGasFrame : Frame := requestFrame cmdGas Payload.zero 0x79

/-- FRAME.CAL_ZERO (R60). -/
def calZeroFrame : Frame := requestFrame cmdZero Payload.zero 0x78

/-- FRAME.CAL_SPAN (R60). -/
def calSpanFrame (s : BitVec 16) (c : Byte) : Frame := requestFrame cmdSpan (spanPayload s) c

/-- FRAME.SET_ABC (R60). -/
def setAbcFrame (a c : Byte) : Frame := requestFrame cmdAbc (abcPayload a) c

/-- FRAME.SET_RANGE (R60). -/
def setRangeFrame (r : BitVec 32) (c : Byte) : Frame := requestFrame cmdRange (rangePayload r) c

end Sys2Proof.Machine
end

