-- ==== Sys2Proof/WellFormed.lean ====
section
/-! DEFINITION. Which instructions are well formed: what R57 to R60, R70 and the narrower rows of the table demand of a
frame. Every operand value of a request is legal as an encoding (a bad one is a BadParameter at run time, R101). -/

namespace Sys2Proof

/-- Whether a narrower row of the table (FRAME.GET_GAS to FRAME.SET_RANGE) spells the same frame (log entry 5). -/
def narrowerRow (k : Byte) (p : Payload) (c : Byte) : Bool :=
  (k == cmdGas && p == Payload.zero && c == 0x79)
    || (k == cmdZero && p == Payload.zero && c == 0x78)
    || (k == cmdSpan && p.p2 == 0 && p.p3 == 0 && p.p4 == 0)
    || (k == cmdAbc && p.p1 == 0 && p.p2 == 0 && p.p3 == 0 && p.p4 == 0)
    || (k == cmdRange && p.p0 == 0)

/-- The instructions that arrive on the request port (R65, R66); the others are frames on the link port. -/
def Instr.isRequest : Instr → Bool
  | .init _ => true
  | .getGas _ => true
  | .calZero => true
  | .calSpan _ => true
  | .setAbc _ => true
  | .setRange _ => true
  | .send _ _ _ _ => true
  | .reserved7 => true
  | .cksum _ => true
  | .validate _ => true
  | .build _ _ _ _ => true
  | .parse _ => true
  | .reservedC => true
  | .reservedD => true
  | .reservedE => true
  | .reservedF => true
  | .frameRequest _ _ _ => false
  | .frameGetGas => false
  | .frameCalZero => false
  | .frameCalSpan _ _ => false
  | .frameSetAbc _ _ => false
  | .frameSetRange _ _ => false
  | .frameResponse _ => false

/-- A frame that CORE writes holds a code of R59 and its checksum (R70); FRAME.RESPONSE has the start marker (R58). -/
def Instr.wellFormed : Instr → Bool
  | .init _ => true
  | .getGas _ => true
  | .calZero => true
  | .calSpan _ => true
  | .setAbc _ => true
  | .setRange _ => true
  | .send _ _ _ _ => true
  | .reserved7 => true
  | .cksum _ => true
  | .validate _ => true
  | .build _ _ _ _ => true
  | .parse _ => true
  | .reservedC => true
  | .reservedD => true
  | .reservedE => true
  | .reservedF => true
  | .frameRequest k p c =>
    Machine.couldHaveWritten (Machine.requestFrame k p c) && !narrowerRow k p c
  | .frameGetGas => true
  | .frameCalZero => true
  | .frameCalSpan s c => Machine.couldHaveWritten (Machine.calSpanFrame s c)
  | .frameSetAbc a c => Machine.couldHaveWritten (Machine.setAbcFrame a c)
  | .frameSetRange r c => Machine.couldHaveWritten (Machine.setRangeFrame r c)
  | .frameResponse g => g.b0 == startMarker

end Sys2Proof
end

