-- ==== Sys2Proof/Decode.lean ====
section
/-! DEFINITION. The decoder, total on every word of every port, and the encoder: the request encoding (30_encoding.md R65
to R68) and the frame patterns (R57, R58, R60). -/

namespace Sys2Proof

/-- A request's instruction (R65), its operands taken from the fields of its format alone (R67, R68). -/
def decodeRequest (r : ReqPort) : Instr :=
  match r.op.toNat with
  | 0 => .init r.xfer
  | 1 => .getGas r.present
  | 2 => .calZero
  | 3 => .calSpan r.span
  | 4 => .setAbc r.abc
  | 5 => .setRange r.range
  | 6 => .send r.code r.present r.size (Payload.ofBits r.payload)
  | 7 => .reserved7
  | 8 => .cksum (Frame.ofBits r.frame)
  | 9 => .validate (Frame.ofBits r.frame)
  | 10 => .build r.code r.present r.size (Payload.ofBits r.payload)
  | 11 => .parse (Frame.ofBits r.frame)
  | 12 => .reservedC
  | 13 => .reservedD
  | 14 => .reservedE
  | _ => .reservedF

/-- The row an outbound frame spells, the narrowest first (R57, R60; log entry 5). -/
def decodeWrite (f : Frame) : Except DecodeError Instr :=
  if f.b0 ≠ startMarker then .error .badStartMarker
  else if f.b1 ≠ deviceByte then .error .badDeviceByte
  else if f = Machine.getGasFrame then .ok .frameGetGas
  else if f = Machine.calZeroFrame then .ok .frameCalZero
  else if f.b2 = cmdSpan ∧ f.b5 = 0 ∧ f.b6 = 0 ∧ f.b7 = 0 then .ok (.frameCalSpan (f.b3 ++ f.b4) f.b8)
  else if f.b2 = cmdAbc ∧ f.b4 = 0 ∧ f.b5 = 0 ∧ f.b6 = 0 ∧ f.b7 = 0 then .ok (.frameSetAbc f.b3 f.b8)
  else if f.b2 = cmdRange ∧ f.b3 = 0 then .ok (.frameSetRange (f.b4 ++ f.b5 ++ f.b6 ++ f.b7) f.b8)
  else .ok (.frameRequest f.b2 ⟨f.b3, f.b4, f.b5, f.b6, f.b7⟩ f.b8)

/-- The decoder. An inbound frame is never rejected here: validation belongs to the meaning (R58, R63, R91). -/
def decode : PortWord → Except DecodeError Instr
  | .request r => .ok (decodeRequest r)
  | .linkWrite f => decodeWrite f
  | .linkRead g => .ok (.frameResponse g)

/-- The word of an instruction; request fields it does not read are zero, or no binding (R57, R58, R60, R65, R67). -/
def encode : Instr → PortWord
  | .init x => .request { op := 0x0, xfer := x }
  | .getGas present => .request { op := 0x1, present := present }
  | .calZero => .request { op := 0x2 }
  | .calSpan v => .request { op := 0x3, span := v }
  | .setAbc e => .request { op := 0x4, abc := e }
  | .setRange r => .request { op := 0x5, range := r }
  | .send k pp n p => .request { op := 0x6, code := k, present := pp, size := n, payload := p.toBits }
  | .reserved7 => .request { op := 0x7 }
  | .cksum f => .request { op := 0x8, frame := f.toBits }
  | .validate f => .request { op := 0x9, frame := f.toBits }
  | .build k pp n p => .request { op := 0xA, code := k, present := pp, size := n, payload := p.toBits }
  | .parse f => .request { op := 0xB, frame := f.toBits }
  | .reservedC => .request { op := 0xC }
  | .reservedD => .request { op := 0xD }
  | .reservedE => .request { op := 0xE }
  | .reservedF => .request { op := 0xF }
  | .frameRequest k p c => .linkWrite (Machine.requestFrame k p c)
  | .frameGetGas => .linkWrite Machine.getGasFrame
  | .frameCalZero => .linkWrite Machine.calZeroFrame
  | .frameCalSpan s c => .linkWrite (Machine.calSpanFrame s c)
  | .frameSetAbc a c => .linkWrite (Machine.setAbcFrame a c)
  | .frameSetRange r c => .linkWrite (Machine.setRangeFrame r c)
  | .frameResponse g => .linkRead g

/-- The word of a table row as its port carries it: a 72-bit row is a frame (R14), outbound where its bytes 0 and 1 are
those of an outbound frame and inbound where only the start marker stands; any other row is the request with that
op-select (mask 0xF) and every other field zero. -/
def tableWord (nbits w : Nat) : Option PortWord :=
  if nbits = 72 then
    let f := Frame.ofBits (BitVec.ofNat 72 w)
    if f.b0 = startMarker then
      if f.b1 = deviceByte then some (.linkWrite f) else some (.linkRead f)
    else none
  else if nbits ≤ 8 then some (.request { op := BitVec.ofNat 4 w })
  else none

/-- The instruction the decoder reads from a table row's word. -/
def decodeTableWord (nbits w : Nat) : Option Instr :=
  match tableWord nbits w with
  | some word => (decode word).toOption
  | none => none

end Sys2Proof
end

