-- ==== Sys2Proof/Machine/State.lean ====
section
/-! DEFINITION. The state of CORE (10_state.md), the script of inputs and the record of what was seen on the ports
(R126), the reasons a step can stop, and the state after reset (R39). -/

namespace Sys2Proof.Machine

/-- `PHASE` (R26). -/
inductive Phase where
  | idle
  | waitWrite
  | waitRead
  deriving DecidableEq, Repr

/-- The response port (R31). A field that holds no value is `none` (R124). -/
structure Resp where
  status : Option ResultCode := none
  frame : Option Frame := none
  cksum : Option Byte := none
  valid : Option Bool := none
  ppm : Option (BitVec 16) := none
  ppmWe : Option Bool := none
  deriving DecidableEq, Repr

/-- The names of the response port's fields (R31). -/
inductive RespField where
  | status
  | frame
  | cksum
  | valid
  | ppm
  | ppmWe
  deriving DecidableEq, Repr

/-- `x.kind` with `x.tx` (R32): the tagged choice, so that a transfer with both or neither buffer has no form. -/
inductive XferKind where
  | write (tx : Frame)
  | read
  deriving DecidableEq, Repr

/-- What became of a transfer. -/
inductive TransferOutcome where
  /-- LINK has not answered -/
  | pending
  /-- LINK's answer: a status and, for a read, 9 bytes (R32) -/
  | answered (st : ResultCode) (rx : Option Frame)
  /-- CORE was reset while it waited; whether the line carried the transfer is left open (R116) -/
  | abandoned
  /-- LINK's answer to an abandoned transfer, which CORE discards (R116) -/
  | discarded (st : ResultCode) (rx : Option Frame)
  deriving DecidableEq, Repr

/-- One entry of the link trace (R49, R126): the number of the transfer, the binding it went to, its kind and bytes, and
LINK's answer. -/
structure Transfer where
  tag : Nat
  link : Option XferRef
  kind : XferKind
  outcome : TransferOutcome
  deriving DecidableEq, Repr

/-- One (request, response) pair of a run's observation (R126). -/
structure Exchange where
  req : ReqPort
  resp : Resp
  deriving DecidableEq, Repr

/-- What the outside world does to CORE (R6, R115; log entry 1). -/
inductive Event where
  /-- HOST issues a request (R30) -/
  | request (r : ReqPort)
  /-- LINK answers transfer number `tag` with a status and, for a read, 9 bytes (R32) -/
  | answer (tag : Nat) (st : ResultCode) (rx : Option Frame)
  /-- HOST reads a field of the response port (R6, R124) -/
  | hostRead (field : RespField)
  /-- CORE is reset (R115, R116) -/
  | reset
  deriving DecidableEq, Repr

/-- The state of the machine. The first eight fields are CORE's, the last four the model's own (INVENTORY.md). -/
structure State where
  /-- `INIT` (R23) -/
  init : Bool
  /-- `XFER` (R24) -/
  xfer : Option XferRef
  /-- `PHASE` (R26) -/
  phase : Phase
  /-- `OPL` (R27) -/
  opl : Option ReqPort
  /-- `TXBUF` (R28) -/
  txbuf : Option Frame
  /-- `RXBUF` (R29) -/
  rxbuf : Option Frame
  /-- the response port (R31) -/
  resp : Resp
  /-- `x.status` (R32), sampled in the step that takes LINK's answer -/
  xstatus : Option ResultCode
  /-- the parameters (R8 to R11), which no step changes (log entry 3) -/
  cfg : Config
  /-- the inputs still to come, in order (log entry 1) -/
  inbox : List Event
  /-- the link trace (R49, R126), newest first (log entry 12) -/
  transfers : List Transfer
  /-- the (request, response) pairs (R126), newest first (log entry 12) -/
  exchanges : List Exchange
  deriving DecidableEq, Repr

/-- Why the machine stops with a fault (R127). -/
inductive Fault where
  /-- `REQUEST_OVERLAP`: a request while an operation is in progress (R119, R120). Raised by the meaning of every request.
  Safe: nothing is claimed of a run after it. -/
  | requestOverlap
  /-- `READ_NO_VALUE`: an element or output that holds no value is read (R124). Raised by HOST's read of an undriven response
  field, and by a completion that finds OPL, TXBUF or `x.status` without a value (states no run reaches). Safe. -/
  | readNoValue
  deriving DecidableEq, Repr

/-- Why the machine gives an input no meaning. -/
inductive Refusal where
  /-- an instruction the dispatch rejects by name; no arm does. Safe. -/
  | notModelled (mnemonic : String)
  /-- LINK breaks its contract (R32, R118; 93 row I14): it answers a transfer CORE did not issue, one already answered, with
  bytes where there are none to give, or with a status outside the result set (R15; log entry 10). Raised by the step and by
  the frame meanings. Safe. -/
  | linkContract
  /-- the outbound frame is no row of the table (R57), which no frame CORE assembles is. Raised by the step. Safe. -/
  | undecodable (e : DecodeError)
  deriving DecidableEq, Repr

/-- The outcome of a step of this machine. -/
abbrev Result := Host.Outcome State Fault Refusal

/-- The state after reset (R39, R115): every element at its reset value, nothing seen on the ports, no input yet. -/
def State.reset : State :=
  { init := false
    xfer := none
    phase := .idle
    opl := none
    txbuf := none
    rxbuf := none
    resp := {}
    xstatus := none
    cfg := Config.normative
    inbox := []
    transfers := []
    exchanges := [] }

end Sys2Proof.Machine
end

