-- ==== Sys2Proof/Machine/Flags.lean ====
section
/-! DEFINITION. The one flag of CORE, `INIT` (R34), as the operations test it: the lifecycle checks (R101), and the
priority between a lifecycle failure and a parameter failure (R102). -/

namespace Sys2Proof.Machine

/-- The lifecycle check of INIT (R90, R101). -/
def mustBeUninitialized (s : State) : Option ResultCode :=
  if s.init then some .alreadyInitialized else none

/-- The lifecycle check of every operation that reaches the link (R87, R101). -/
def mustBeInitialized (s : State) : Option ResultCode :=
  if s.init then none else some .notInitialized

/-- The result of a parameter check (R101): BadParameter unless it holds. -/
def paramCheck (ok : Bool) : Option ResultCode :=
  if ok then none else some .badParameter

/-- Which of two failures is reported (R11). -/
def pickFailure : GuardOrder → ResultCode → ResultCode → ResultCode
  | .stateFirst, sf, _ => sf
  | .paramFirst, _, pf => pf

/-- `first_failure` (R102). -/
def firstFailure (order : GuardOrder) (sf pf : Option ResultCode) : Option ResultCode :=
  match sf, pf with
  | none, pf => pf
  | some a, none => some a
  | some a, some b => some (pickFailure order a b)

/-- Whether a code belongs to the result set under the policy (R15, R99): InvalidResponse only under INVALID_RESPONSE, every
other code always. -/
def inResultSet (policy : ResponsePolicy) (c : ResultCode) : Bool :=
  c != .invalidResponse || policy == .invalidResponse

/-- What GET_GAS reports for a frame that was read with status `st` and fails validation (R9, R91). -/
def invalidFrameResult : ResponsePolicy → ResultCode → ResultCode
  | .permissive, st => st
  | .generalError, _ => .generalError
  | .invalidResponse, _ => .invalidResponse

end Sys2Proof.Machine
end

