-- ==== Sys2Proof/Machine/Ops.lean ====
section
/-! DEFINITION. The named operations the meanings share: accepting a request, completing it (CORE has no trap entry, R106,
so a failing completion is its whole exception mechanism), issuing a transfer, taking LINK's answer, and reset. -/

namespace Sys2Proof.Machine

/-- `busy` (R33). -/
def State.busy (s : State) : Bool := s.phase != .idle

/-- What CORE drives on the link port while a transfer is in progress (R32): `x.kind` and, for a write, `x.tx`. -/
def State.linkOut (s : State) : Option XferKind :=
  match s.phase with
  | .idle => none
  | .waitWrite => s.txbuf.map XferKind.write
  | .waitRead => some .read

/-- `x.len` (R32, R47). -/
def XferKind.len (_ : XferKind) : Nat := frameLen

/-- Copy an accepted request into OPL (R87); the outputs of the operation before it are not carried over (R123, log
entry 8). -/
def State.latch (r : ReqPort) (s : State) : State :=
  { s with opl := some r, resp := {} }

/-- A request is performed only when `busy = 0` (R87, R119). -/
def whenIdle (s : State) (perform : Result) : Result :=
  if s.busy then .fault .requestOverlap else perform

/-- `complete(st)` (R16, R88, R97): drive the outputs, return to idle, clear OPL, TXBUF and RXBUF, and record the
(request, response) pair (R126). `out` holds the outputs besides `resp.status`. -/
def complete (st : ResultCode) (out : Resp) (s : State) : Result :=
  match s.opl with
  | none => .fault .readNoValue
  | some r =>
    let resp := { out with status := some st }
    .next { s with
      phase := .idle
      opl := none
      txbuf := none
      rxbuf := none
      resp := resp
      xstatus := none
      exchanges := ⟨r, resp⟩ :: s.exchanges }

/-- Make the checks of R101 before anything else (R87, R103): the failure R102 selects completes the operation with the
outputs `out`, no state written and no transfer issued (R50, R100). -/
def checked (sf pf : Option ResultCode) (out : Resp) (s : State) (proceed : Result) : Result :=
  match firstFailure s.cfg.guardOrder sf pf with
  | some e => complete e out s
  | none => proceed

/-- Append a transfer to the bound LINK to the link trace (R24, R49). -/
def State.issue (k : XferKind) (s : State) : State :=
  { s with transfers := ⟨s.transfers.length, s.xfer, k, .pending⟩ :: s.transfers }

/-- `do_write(f)` (R88) up to the wait: TXBUF, PHASE and the write transfer. -/
def doWrite (f : Frame) (s : State) : Result :=
  .next { s.issue (.write f) with txbuf := some f, phase := .waitWrite }

/-- `do_read()` (R88) up to the wait: PHASE and the read transfer. -/
def doRead (s : State) : Result :=
  .next { s.issue .read with phase := .waitRead, xstatus := none }

/-- What follows the write step (R91 for GET_GAS, R92 to R96 for the others, told apart by OPL, R27): GET_GAS goes on to its
read if the write returned Success; otherwise the write's status is the operation's result (R89, R103). -/
def afterWrite (st : ResultCode) (s : State) : Result :=
  match s.opl with
  | none => .fault .readNoValue
  | some r =>
    if r.op = opGetGas then
      if st = .success then doRead s else complete st { ppmWe := some false } s
    else complete st {} s

/-- The end of GET_GAS once its frame is in RXBUF (R91): validate, extract, complete. -/
def extract (st : ResultCode) (s : State) : Result :=
  match s.rxbuf with
  | none => .fault .readNoValue
  | some g =>
    if valid g then complete .success { ppm := some (ppmOf g), ppmWe := some true } s
    else complete (invalidFrameResult s.cfg.policy st) { ppmWe := some false } s

/-- What follows the read step (R91, R103): RXBUF is written only after a read that returned Success. -/
def afterRead (st : ResultCode) (g : Frame) (s : State) : Result :=
  if st = .success then extract st { s with rxbuf := some g }
  else complete st { ppmWe := some false } s

/-- LINK's status is a member of the result set (R15, R32); with any other LINK has broken its contract (R118; log entry
10). -/
def whenInSet (st : ResultCode) (s : State) (react : Result) : Result :=
  if inResultSet s.cfg.policy st then react else .refused .linkContract

/-- LINK's answer to the write transfer of `f` takes CORE on (R26, R122): with no answer on the port CORE stays where it is;
an answer for a frame CORE is not writing breaks LINK's contract (R118). -/
def finishWrite (f : Frame) (s : State) : Result :=
  match s.phase with
  | .waitWrite =>
    match s.txbuf with
    | none => .fault .readNoValue
    | some t =>
      if t = f then
        match s.xstatus with
        | none => .next s
        | some st => whenInSet st s <| afterWrite st s
      else .refused .linkContract
  | .idle => .refused .linkContract
  | .waitRead => .refused .linkContract

/-- LINK's answer to the read transfer, with the bytes `g`, takes CORE on (R26, R122). -/
def finishRead (g : Frame) (s : State) : Result :=
  match s.phase with
  | .waitRead =>
    match s.xstatus with
    | none => .next s
    | some st => whenInSet st s <| afterRead st g s
  | .idle => .refused .linkContract
  | .waitWrite => .refused .linkContract

/-- Whether a response field holds a value (R31, R124). -/
def Resp.drives (p : Resp) : RespField → Bool
  | .status => p.status.isSome
  | .frame => p.frame.isSome
  | .cksum => p.cksum.isSome
  | .valid => p.valid.isSome
  | .ppm => p.ppm.isSome
  | .ppmWe => p.ppmWe.isSome

/-- The three bits HOST sees on `resp.status`, when it is driven (R31, R99). -/
def Resp.statusBits (p : Resp) : Option (BitVec 3) := p.status.map ResultCode.toBits

/-- HOST reads a response field: no state changes; a field with no value is a fault (R124). -/
def hostReads (field : RespField) (s : State) : Result :=
  if s.resp.drives field then .next s else .fault .readNoValue

/-- Transfer number `tag` of the link trace. -/
def State.transfer? (tag : Nat) (s : State) : Option Transfer :=
  s.transfers.find? (fun t => t.tag == tag)

/-- Record what became of transfer number `tag`. -/
def State.settle (tag : Nat) (o : TransferOutcome) (s : State) : State :=
  { s with transfers := s.transfers.map fun t => if t.tag = tag then { t with outcome := o } else t }

/-- The word LINK's answer completes: the frame of a pending write, or the bytes given for a pending read (R32). An answer
that fits no pending transfer has none. -/
def State.answerWord (tag : Nat) (rx : Option Frame) (s : State) : Option PortWord :=
  match s.transfer? tag with
  | none => none
  | some t =>
    match t.outcome, t.kind, rx with
    | .pending, .write f, none => some (.linkWrite f)
    | .pending, .read, some g => some (.linkRead g)
    | _, _, _ => none

/-- Sample LINK's answer: `x.status` for CORE, the answer for the link trace (R32, R49). -/
def State.sample (tag : Nat) (st : ResultCode) (rx : Option Frame) (s : State) : State :=
  { s.settle tag (.answered st rx) with xstatus := some st }

/-- Whether an answer has the form of the transfer's kind: 9 bytes for a read, none for a write (R32). -/
def XferKind.fits (rx : Option Frame) : XferKind → Bool
  | .write _ => rx.isNone
  | .read => rx.isSome

/-- An answer to no pending transfer: one to a transfer a reset abandoned is discarded (R116); any other breaks LINK's
contract (R118; 93 row I14). -/
def lateAnswer (tag : Nat) (st : ResultCode) (rx : Option Frame) (s : State) : Result :=
  match s.transfer? tag with
  | none => .refused .linkContract
  | some t =>
    if t.outcome = .abandoned ∧ t.kind.fits rx = true then
      whenInSet st s <| .next (s.settle tag (.discarded st rx))
    else .refused .linkContract

/-- A transfer in progress at a reset is abandoned (R116). -/
def Transfer.abandon (t : Transfer) : Transfer :=
  if t.outcome = .pending then { t with outcome := .abandoned } else t

/-- Reset (R115, R116): every element of CORE at its reset value; the parameters, the inputs to come and what was already
seen on the ports stay (log entry 11). -/
def State.resetNow (s : State) : State :=
  { State.reset with
    cfg := s.cfg
    inbox := s.inbox
    transfers := s.transfers.map Transfer.abandon
    exchanges := s.exchanges }

/-- What a run shows (R126), oldest first. -/
structure Observation where
  exchanges : List Exchange
  transfers : List Transfer
  init : Bool
  xfer : Option XferRef
  deriving DecidableEq, Repr

/-- The observation of the run so far (R126). -/
def State.observe (s : State) : Observation :=
  { exchanges := s.exchanges.reverse
    transfers := s.transfers.reverse
    init := s.init
    xfer := s.xfer }

/-- Whether an input is a request of HOST. -/
def Event.isRequest : Event → Bool
  | .request _ => true
  | .answer _ _ _ => false
  | .hostRead _ => false
  | .reset => false

/-- A run is over when HOST issues no further request and `busy = 0`, whatever other inputs are still to come (R126). -/
def State.runEnded (s : State) : Bool := !s.inbox.any Event.isRequest && !s.busy

/-- What the caller's output location holds after these exchanges (newest first): the concentration last delivered with
`resp.ppm_we = 1` (R31). -/
def outputLocation : List Exchange → Option (BitVec 16)
  | [] => none
  | e :: older => if e.resp.ppmWe = some true then e.resp.ppm else outputLocation older

/-- Put a request where the next step takes it: first in the inbox, with CORE idle (log entry 14). -/
def State.placeRequest (r : ReqPort) (s : State) : State :=
  { s with
    phase := .idle
    opl := none
    txbuf := none
    rxbuf := none
    inbox := .request r :: s.inbox }

/-- The request whose operation a placed outbound frame belongs to: GET_GAS for its frame, SEND for any other. -/
def placedRequest (f : Frame) : ReqPort :=
  if f = getGasFrame then { op := opGetGas, present := true }
  else
    { op := opSend
      code := f.b2
      present := true
      size := 5
      payload := f.b3 ++ f.b4 ++ f.b5 ++ f.b6 ++ f.b7 }

/-- CORE waiting on transfer `k` of the operation `r`, whose request frame is `f`, with LINK's answer Success next in the
inbox (log entry 14). -/
def State.placeTransfer (k : XferKind) (r : ReqPort) (f : Frame) (rx : Option Frame) (phase : Phase) (s : State) : State :=
  { s with
    init := true
    xfer := some (s.xfer.getD ⟨0⟩)
    phase := phase
    opl := some r
    txbuf := some f
    rxbuf := none
    resp := {}
    inbox := .answer s.transfers.length .success rx :: s.inbox
    transfers := ⟨s.transfers.length, some (s.xfer.getD ⟨0⟩), k, .pending⟩ :: s.transfers }

/-- Put a port word where the next step takes it (log entry 14). -/
def State.place (w : PortWord) (s : State) : State :=
  match w with
  | .request r => s.placeRequest r
  | .linkWrite f => s.placeTransfer (.write f) (placedRequest f) f none .waitWrite
  | .linkRead g =>
    s.placeTransfer .read { op := opGetGas, present := true } getGasFrame (some g) .waitRead

end Sys2Proof.Machine
end

