-- ==== Sys2Proof/Machine/Commands.lean ====
section
/-! DEFINITION. The six operations that reach the link (R91 to R96), from acceptance to the write transfer they issue; what
happens when LINK answers is in Machine/Frames.lean. -/

namespace Sys2Proof.Machine

/-- GET_GAS (R91), up to its write. A failed check drives `resp.ppm_we = 0`. -/
def execGetGas (present : Bool) (s : State) : Result :=
  whenIdle s <|
    checked (mustBeInitialized s) (paramCheck present) { ppmWe := some false } s <|
      doWrite (assemble cmdGas Payload.zero 0) s

/-- CAL_ZERO (R92). -/
def execCalZero (s : State) : Result :=
  whenIdle s <|
    checked (mustBeInitialized s) none {} s <|
      doWrite (assemble cmdZero Payload.zero 0) s

/-- CAL_SPAN (R93): every u16 is sent as given. -/
def execCalSpan (v : BitVec 16) (s : State) : Result :=
  whenIdle s <|
    checked (mustBeInitialized s) none {} s <|
      doWrite (assemble cmdSpan (spanPayload v) 2) s

/-- SET_ABC (R94): `ABC_ON` when enabled, an explicit zero byte when disabled. -/
def execSetAbc (e : Bool) (s : State) : Result :=
  whenIdle s <|
    checked (mustBeInitialized s) none {} s <|
      doWrite (assemble cmdAbc (abcPayload (if e then s.cfg.abcOn else 0)) 1) s

/-- SET_RANGE (R95): the acceptance set is not consulted. -/
def execSetRange (r : Byte) (s : State) : Result :=
  whenIdle s <|
    checked (mustBeInitialized s) (paramCheck (rangeValue r).isSome) {} s <|
      doWrite (assemble cmdRange (rangePayload ((rangeValue r).getD 0)) 5) s

/-- SEND (R96): the five steps of send_command. -/
def execSend (k : Byte) (pp : Bool) (n : Byte) (p : Payload) (s : State) : Result :=
  whenIdle s <|
    checked (mustBeInitialized s) (encoderGuard s.cfg.acceptRange k pp n) {} s <|
      doWrite (assemble k p n.toNat) s

end Sys2Proof.Machine
end

