-- ==== Sys2Proof/Machine/Frames.lean ====
section
/-! DEFINITION. The frame rows of the table as steps of the link port (log entry 4): LINK's answer to the transfer that
carries the frame takes the operation in OPL on (R26, R88, R89, R91, R125). -/

namespace Sys2Proof.Machine

/-- FRAME.REQUEST (R57): a write of a frame no narrower row spells. -/
def execFrameRequest (k : Byte) (p : Payload) (c : Byte) (s : State) : Result :=
  finishWrite (requestFrame k p c) s

/-- FRAME.GET_GAS (R60). -/
def execFrameGetGas (s : State) : Result := finishWrite getGasFrame s

/-- FRAME.CAL_ZERO (R60). -/
def execFrameCalZero (s : State) : Result := finishWrite calZeroFrame s

/-- FRAME.CAL_SPAN (R60). -/
def execFrameCalSpan (v : BitVec 16) (c : Byte) (s : State) : Result := finishWrite (calSpanFrame v c) s

/-- FRAME.SET_ABC (R60). -/
def execFrameSetAbc (a c : Byte) (s : State) : Result := finishWrite (setAbcFrame a c) s

/-- FRAME.SET_RANGE (R60). -/
def execFrameSetRange (r : BitVec 32) (c : Byte) (s : State) : Result := finishWrite (setRangeFrame r c) s

/-- FRAME.RESPONSE (R58): the end of GET_GAS (R91). -/
def execFrameResponse (g : Frame) (s : State) : Result := finishRead g s

end Sys2Proof.Machine
end

