-- ==== Sys2Proof/Machine/Lifecycle.lean ====
section
/-! DEFINITION. The lifecycle operation INIT (R90) and the reserved op-selects (R66). -/

namespace Sys2Proof.Machine

/-- Bind the transfer function and set INIT, both together (R25, R90). -/
def State.bind (x : Option XferRef) (s : State) : State :=
  { s with xfer := x, init := true }

/-- INIT (R90). -/
def execInit (x : Option XferRef) (s : State) : Result :=
  whenIdle s <|
    checked (mustBeUninitialized s) (paramCheck x.isSome) {} s <|
      complete .success {} (s.bind x)

/-- A reserved op-select completes at once with BadParameter (R66). -/
def reservedSelect (s : State) : Result :=
  whenIdle s <| complete .badParameter {} s

/-- RESERVED_7 (R66). -/
def execReserved7 (s : State) : Result := reservedSelect s
/-- RESERVED_C (R66). -/
def execReservedC (s : State) : Result := reservedSelect s
/-- RESERVED_D (R66). -/
def execReservedD (s : State) : Result := reservedSelect s
/-- RESERVED_E (R66). -/
def execReservedE (s : State) : Result := reservedSelect s
/-- RESERVED_F (R66). -/
def execReservedF (s : State) : Result := reservedSelect s

end Sys2Proof.Machine
end

