-- ==== Sys2Proof/Machine/Primitives.lean ====
section
/-! DEFINITION. The four operations that expose the codec's sub-blocks (R83 to R86): no lifecycle check, no transfer. -/

namespace Sys2Proof.Machine

/-- CKSUM (R83). -/
def execCksum (f : Frame) (s : State) : Result :=
  whenIdle s <| complete .success { cksum := some (cksum f) } s

/-- VALIDATE (R84). -/
def execValidate (f : Frame) (s : State) : Result :=
  whenIdle s <| complete .success { valid := some (valid f) } s

/-- BUILD (R85): the frame is driven only when the guard passes. -/
def execBuild (k : Byte) (pp : Bool) (n : Byte) (p : Payload) (s : State) : Result :=
  whenIdle s <|
    match encoderGuard s.cfg.acceptRange k pp n with
    | some e => complete e {} s
    | none => complete .success { frame := some (assemble k p n.toNat) } s

/-- PARSE (R86): both outputs are always driven. -/
def execParse (f : Frame) (s : State) : Result :=
  whenIdle s <| complete .success { ppm := some (ppmOf f), valid := some (valid f) } s

end Sys2Proof.Machine
end

