-- ==== Sys2Proof/Machine/Dispatch.lean ====
section
/-! DEFINITION. The dispatch: one arm per constructor of Instr, each one direct call of its meaning. -/

namespace Sys2Proof.Machine

def exec (i : Instr) (s : State) : Host.Outcome State Fault Refusal :=
  match i with
  | .init x => Sys2Proof.Machine.execInit x s
  | .getGas present => Sys2Proof.Machine.execGetGas present s
  | .calZero => Sys2Proof.Machine.execCalZero s
  | .calSpan v => Sys2Proof.Machine.execCalSpan v s
  | .setAbc e => Sys2Proof.Machine.execSetAbc e s
  | .setRange r => Sys2Proof.Machine.execSetRange r s
  | .send k pp n p => Sys2Proof.Machine.execSend k pp n p s
  | .reserved7 => Sys2Proof.Machine.execReserved7 s
  | .cksum f => Sys2Proof.Machine.execCksum f s
  | .validate f => Sys2Proof.Machine.execValidate f s
  | .build k pp n p => Sys2Proof.Machine.execBuild k pp n p s
  | .parse f => Sys2Proof.Machine.execParse f s
  | .reservedC => Sys2Proof.Machine.execReservedC s
  | .reservedD => Sys2Proof.Machine.execReservedD s
  | .reservedE => Sys2Proof.Machine.execReservedE s
  | .reservedF => Sys2Proof.Machine.execReservedF s
  | .frameRequest k p c => Sys2Proof.Machine.execFrameRequest k p c s
  | .frameGetGas => Sys2Proof.Machine.execFrameGetGas s
  | .frameCalZero => Sys2Proof.Machine.execFrameCalZero s
  | .frameCalSpan v c => Sys2Proof.Machine.execFrameCalSpan v c s
  | .frameSetAbc a c => Sys2Proof.Machine.execFrameSetAbc a c s
  | .frameSetRange r c => Sys2Proof.Machine.execFrameSetRange r c s
  | .frameResponse g => Sys2Proof.Machine.execFrameResponse g s

end Sys2Proof.Machine
end

