-- ==== Sys2Proof/Machine/Events.lean ====
section
/-! DEFINITION. How CORE takes an input (R6): which instruction it spells, and what each kind of input does. -/

namespace Sys2Proof.Machine

/-- Decode the word on a port and run it. -/
def runWord (w : PortWord) (s : State) : Result :=
  match decode w with
  | .ok i => exec i s
  | .error e => .refused (.undecodable e)

/-- What CORE does with one input, already taken off the inbox. -/
def takeEvent (e : Event) (s : State) : Result :=
  match e with
  | .request r => runWord (.request r) (s.latch r)
  | .answer tag st rx =>
    match s.answerWord tag rx with
    | some w => runWord w (s.sample tag st rx)
    | none => lateAnswer tag st rx s
  | .hostRead field => hostReads field s
  | .reset => .next s.resetNow

/-- Take the next input; with none the state stands as it is (R115, R122; log entry 2). -/
def advance (s : State) : Result :=
  match s.inbox with
  | [] => .next s
  | e :: rest => takeEvent e { s with inbox := rest }

/-- The observation of the run from `s` (R126), taken where the run ends. None when it has not ended within `n` steps (a wait,
R122), or when a step faults or meets a refusal, of which R126 says nothing. -/
def observeRun : Nat → State → Option Observation
  | 0, s => if s.runEnded then some s.observe else none
  | n + 1, s =>
    if s.runEnded then some s.observe
    else
      match advance s with
      | .next t => observeRun n t
      | .fault _ => none
      | .refused _ => none

end Sys2Proof.Machine
end

