-- ==== Sys2Proof/Machine/Step.lean ====
section
/-! DEFINITION. One step of the machine, and the placing of a table word where the next step takes it. -/

namespace Sys2Proof.Machine

/-- The step: CORE takes the next input (R6), or waits (R122). -/
def step (s : State) : Host.Outcome State Fault Refusal := advance s

/-- `s` with the instruction of that table word placed where `step` takes its next one (log entry 14). -/
def State.withFetchWord (s : State) (nbits w : Nat) : State :=
  match tableWord nbits w with
  | some word => s.place word
  | none => s

end Sys2Proof.Machine
end

