-- ==== Sys2Proof/Safety.lean ====
section
/-! DEFINITION. What the claims mean by a sound state (Inv) and by inputs that respect CORE's contract (obeys). -/

namespace Sys2Proof.Machine

/-- The op-selects of the operations that reach the link (R41, R65): 0x1 to 0x6. -/
def reachesLink (op : BitVec 4) : Bool := 1 ≤ op.toNat && op.toNat ≤ 6

/-- Transfers are numbered in the order issued (newest first in the list). -/
def Numbered : List Transfer → Prop
  | [] => True
  | t :: older => t.tag = older.length ∧ Numbered older

/-- Exactly the transfer CORE waits for is pending, and it is the newest (R32, R51). -/
def InFlight (s : State) : Prop :=
  match s.phase with
  | .idle => ∀ t ∈ s.transfers, t.outcome ≠ .pending
  | .waitWrite =>
    ∃ t older, s.transfers = t :: older ∧ t.outcome = .pending ∧ t.link = s.xfer ∧
      (∃ f, s.txbuf = some f ∧ t.kind = .write f) ∧ ∀ u ∈ older, u.outcome ≠ .pending
  | .waitRead =>
    ∃ t older, s.transfers = t :: older ∧ t.outcome = .pending ∧ t.link = s.xfer ∧
      t.kind = .read ∧ ∀ u ∈ older, u.outcome ≠ .pending

/-- An entry of the link trace went to a binding, and a write carries a frame CORE could have written (R24, R62, R70). -/
def Transfer.proper (t : Transfer) : Prop :=
  t.link.isSome = true ∧ ∀ f, t.kind = .write f → couldHaveWritten f = true

/-- The invariant of CORE between steps. -/
structure Inv (s : State) : Prop where
  /-- R25 -/
  lifecycle : s.init = s.xfer.isSome
  /-- R27, R28, R97 -/
  idleClear : s.phase = .idle → s.opl = none ∧ s.txbuf = none
  /-- R29, R97, and the sampled `x.status` is used up in the step that samples it -/
  scratchClear : s.rxbuf = none ∧ s.xstatus = none
  /-- R26, R27, R28: an operation in progress passed its lifecycle check, is latched and has built its frame -/
  inProgress : s.phase ≠ .idle →
    s.init = true ∧ s.resp = {} ∧ s.txbuf.isSome = true ∧ ∃ r, s.opl = some r ∧ reachesLink r.op = true
  /-- R41: only GET_GAS reads -/
  readIsGetGas : s.phase = .waitRead → ∃ r, s.opl = some r ∧ r.op = opGetGas
  /-- R32, R51 -/
  inFlight : InFlight s
  /-- R49 -/
  numbered : Numbered s.transfers
  /-- R24, R62, R70 -/
  proper : ∀ t ∈ s.transfers, t.proper

/-- Whether the next input respects the contract (R32, R118, R119, R124): HOST issues no request while CORE is busy and
reads no field without a value, LINK answers only a transfer that waits for it or that a reset abandoned, in its form and with a status of the result set
(R15). -/
def State.obeys (s : State) : Bool :=
  match s.inbox with
  | [] => true
  | .request _ :: _ => !s.busy
  | .answer tag st rx :: _ =>
    match s.transfer? tag with
    | none => false
    | some t => (t.outcome == .pending || t.outcome == .abandoned) && t.kind.fits rx && inResultSet s.cfg.policy st
  | .hostRead field :: _ => s.resp.drives field
  | .reset :: _ => true

/-- A run of `k` steps that neither faults nor meets a refusal. -/
def safeRun (k : Nat) (s : State) : Prop := ∃ t, Sys2Proof.core.run k s = .next t

end Sys2Proof.Machine
end

