-- ==== Sys2Proof/Certificates/Slice0/Obligations.lean ====
section
/-! DEFINITION. The statements for the provers. The helpers of namespace Claims say frames, results and next states from the
spec's tables, with numbers and explicit records, without using the model's codec or its shared operations. -/

namespace Sys2Proof.Claims

open Sys2Proof.Machine

/-- The sum of offsets 1 to 7 as a number (R72). -/
def sum7 (f : Frame) : Nat :=
  f.b1.toNat + f.b2.toNat + f.b3.toNat + f.b4.toNat + f.b5.toNat + f.b6.toNat + f.b7.toNat

/-- The sum of offsets 1 to 8 as a number (R78). -/
def sum8 (f : Frame) : Nat := sum7 f + f.b8.toNat

/-- A frame the validator accepts, said with numbers (R78). -/
def intact (f : Frame) : Bool := f.b0.toNat == 0xFF && sum8 f % 256 == 0

/-- A request frame with its checksum (R57, R72), from its command code and the bytes at offsets 3 to 7. -/
def commandFrame (k a b c d e : Byte) : Frame :=
  ⟨0xFF, 0x01, k, a, b, c, d, e,
    BitVec.ofNat 8 (256 - (1 + k.toNat + a.toNat + b.toNat + c.toNat + d.toNat + e.toNat) % 256)⟩

/-- The fixed GET_GAS frame (R60). -/
def gasFrame : Frame := ⟨0xFF, 0x01, 0x86, 0x00, 0x00, 0x00, 0x00, 0x00, 0x79⟩

/-- The CAL_SPAN frame: the span value big-endian at offsets 3 and 4 (R60, R93). -/
def spanFrame (v : BitVec 16) : Frame :=
  commandFrame 0x88 (BitVec.ofNat 8 (v.toNat / 256)) (BitVec.ofNat 8 v.toNat) 0 0 0

/-- The three SET_RANGE frames (R60, R61; 95 L2.8); no other selector has one. -/
def rangeFrame (q : Byte) : Option Frame :=
  if q.toNat = 0 then some ⟨0xFF, 0x01, 0x99, 0x00, 0x00, 0x00, 0x07, 0xD0, 0x8F⟩
  else if q.toNat = 1 then some ⟨0xFF, 0x01, 0x99, 0x00, 0x00, 0x00, 0x13, 0x88, 0xCB⟩
  else if q.toNat = 2 then some ⟨0xFF, 0x01, 0x99, 0x00, 0x00, 0x00, 0x27, 0x10, 0x2F⟩
  else none

/-- The frame of a code and the first `n` payload bytes, the rest zero (R76). -/
def payloadFrame (k : Byte) (p : Payload) (n : Nat) : Frame :=
  commandFrame k (if 1 ≤ n then p.p0 else 0) (if 2 ≤ n then p.p1 else 0) (if 3 ≤ n then p.p2 else 0)
    (if 4 ≤ n then p.p3 else 0) (if 5 ≤ n then p.p4 else 0)

/-- The acceptance set (R74). -/
def codeAccepted (acceptRange : Bool) (k : Byte) : Bool :=
  k.toNat == 0x86 || k.toNat == 0x87 || k.toNat == 0x88 || k.toNat == 0x79 || (acceptRange && k.toNat == 0x99)

/-- The three checks of the command encoder together (R77). -/
def sendable (acceptRange : Bool) (k : Byte) (pp : Bool) (n : Byte) : Bool :=
  codeAccepted acceptRange k && pp == decide (0 < n.toNat) && decide (n.toNat ≤ 5)

/-- Which result is reported when the lifecycle check (`initialized`) or the parameter check (`ok`) of an operation that
needs INIT fails (R101, R102). -/
def reportedFailure (order : GuardOrder) (initialized ok : Bool) : ResultCode :=
  match initialized, ok, order with
  | true, _, _ => .badParameter
  | false, true, _ => .notInitialized
  | false, false, .stateFirst => .notInitialized
  | false, false, .paramFirst => .badParameter

/-- What an INIT that does not bind reports (R90, R102). -/
def initFailure (order : GuardOrder) (initialized present : Bool) : ResultCode :=
  match initialized, present, order with
  | false, _, _ => .badParameter
  | true, true, _ => .alreadyInitialized
  | true, false, .stateFirst => .alreadyInitialized
  | true, false, .paramFirst => .badParameter

/-- The nine bytes of `req.frame`, byte `i` its bits `71-8i` to `64-8i` (R68). -/
def frameOf (F : BitVec 72) : Frame :=
  ⟨BitVec.ofNat 8 (F.toNat / 2 ^ 64), BitVec.ofNat 8 (F.toNat / 2 ^ 56), BitVec.ofNat 8 (F.toNat / 2 ^ 48),
    BitVec.ofNat 8 (F.toNat / 2 ^ 40), BitVec.ofNat 8 (F.toNat / 2 ^ 32), BitVec.ofNat 8 (F.toNat / 2 ^ 24),
    BitVec.ofNat 8 (F.toNat / 2 ^ 16), BitVec.ofNat 8 (F.toNat / 2 ^ 8), BitVec.ofNat 8 F.toNat⟩

/-- The five bytes of `req.payload`, byte `j` its bits `39-8j` to `32-8j` (R68). -/
def payloadOf (P : BitVec 40) : Payload :=
  ⟨BitVec.ofNat 8 (P.toNat / 2 ^ 32), BitVec.ofNat 8 (P.toNat / 2 ^ 24), BitVec.ofNat 8 (P.toNat / 2 ^ 16),
    BitVec.ofNat 8 (P.toNat / 2 ^ 8), BitVec.ofNat 8 P.toNat⟩

/-- What GET_GAS reports for a frame that fails validation (R9, R91). -/
def corruptResult : ResponsePolicy → ResultCode
  | .permissive => .success
  | .generalError => .generalError
  | .invalidResponse => .invalidResponse

/-- A code of the result set under the policy: InvalidResponse only under INVALID_RESPONSE (R15). -/
def InSet (policy : ResponsePolicy) (c : ResultCode) : Prop := c = .invalidResponse → policy = .invalidResponse

/-- Every code CORE drives, has driven or has taken from LINK belongs to the result set (R15). -/
def CodesInSet (s : State) : Prop :=
  (∀ c, s.resp.status = some c → InSet s.cfg.policy c) ∧
  (∀ e ∈ s.exchanges, ∀ c, e.resp.status = some c → InSet s.cfg.policy c) ∧
  (∀ u ∈ s.transfers, ∀ c rx, u.outcome = .answered c rx ∨ u.outcome = .discarded c rx → InSet s.cfg.policy c)

/-- `s` after a completion of the request `r` with the response `p`; every other field as in `s` (R97, R126). -/
def finished (s : State) (r : ReqPort) (p : Resp) : State :=
  { s with
    phase := .idle, opl := none, txbuf := none, rxbuf := none, resp := p, xstatus := none
    exchanges := { req := r, resp := p } :: s.exchanges }

/-- `s` with the write of `f` issued to the bound LINK; every other field as in `s` (R88). -/
def writing (s : State) (f : Frame) : State :=
  { s with
    phase := .waitWrite, txbuf := some f
    transfers := { tag := s.transfers.length, link := s.xfer, kind := .write f, outcome := .pending } :: s.transfers }

/-- `s` with a read issued to the bound LINK; every other field as in `s` (R88). -/
def reading (s : State) : State :=
  { s with
    phase := .waitRead, xstatus := none
    transfers := { tag := s.transfers.length, link := s.xfer, kind := .read, outcome := .pending } :: s.transfers }

/-- What the end of GET_GAS drives, from the read's status and bytes (R91). -/
def gasResponse (cfg : Config) (st : ResultCode) (g : Frame) : Resp :=
  if st ≠ .success then { status := some st, ppmWe := some false }
  else if intact g then
    { status := some .success, ppm := some (BitVec.ofNat 16 (g.b2.toNat * 256 + g.b3.toNat)), ppmWe := some true }
  else { status := some (corruptResult cfg.policy), ppmWe := some false }

/-- An idle `s` after whole operations: the inputs left, the response, the pair and the transfers added (R126). -/
def served (s : State) (rest : List Event) (r : ReqPort) (p : Resp) (new : List Transfer) : State :=
  { s with
    inbox := rest, resp := p
    exchanges := { req := r, resp := p } :: s.exchanges
    transfers := new ++ s.transfers }

/-- A write to the bound LINK, answered, as number `n` of the link trace. -/
def written (s : State) (n : Nat) (f : Frame) (st : ResultCode) : Transfer :=
  { tag := n, link := s.xfer, kind := .write f, outcome := .answered st none }

/-- The frame a one-write command sends when its parameter check passes, `none` when it fails (R92 to R96, R98). -/
def commandOf (cfg : Config) (r : ReqPort) : Option Frame :=
  if r.op = 0x2 then some ⟨0xFF, 0x01, 0x87, 0x00, 0x00, 0x00, 0x00, 0x00, 0x78⟩
  else if r.op = 0x3 then some (spanFrame r.span)
  else if r.op = 0x4 then some (commandFrame 0x79 (if r.abc then cfg.abcOn else 0) 0 0 0 0)
  else if r.op = 0x5 then rangeFrame r.range
  else if sendable cfg.acceptRange r.code r.present r.size then
    some (payloadFrame r.code (payloadOf r.payload) r.size.toNat)
  else none

/-- The write frames' common meaning, for the instruction `i` whose frame is `f`: LINK's answer, any code of the result set,
takes the operation in OPL on (R15, R26, R89, R91, R103). -/
def AnswerTakesOn (i : Instr) (f : Frame) : Prop :=
  ∀ (s : State) (r : ReqPort) (st : ResultCode),
    s.phase = .waitWrite → s.txbuf = some f → s.opl = some r → s.xstatus = some st → InSet s.cfg.policy st →
    exec i s = .next
      (if r.op = 0x1 then
        if st = .success then reading s else finished s r { status := some st, ppmWe := some false }
      else finished s r { status := some st })

/-- Outside its own transfer, or with a status outside the result set, a frame is refused, and without an answer CORE stays
where it is (R15, R118, R122; log entries 2, 4, 9 and 10). -/
def NeedsItsTransfer (i : Instr) (f : Frame) : Prop :=
  ∀ s : State,
    (s.phase ≠ .waitWrite → exec i s = .refused .linkContract) ∧
    (∀ u, s.phase = .waitWrite → s.txbuf = some u → u ≠ f → exec i s = .refused .linkContract) ∧
    (∀ st, s.phase = .waitWrite → s.txbuf = some f → s.xstatus = some st → ¬ InSet s.cfg.policy st →
      exec i s = .refused .linkContract) ∧
    (s.phase = .waitWrite → s.txbuf = some f → s.xstatus = none → exec i s = .next s)

/-- HOST issues no further request and `busy = 0` (R126). -/
def Ended (s : State) : Prop := (∀ r, .request r ∉ s.inbox) ∧ s.phase = .idle

/-- Every element and output of CORE at the value of R39's table. -/
def AtReset (s : State) : Prop :=
  s.init = false ∧ s.xfer = none ∧ s.phase = .idle ∧ s.opl = none ∧ s.txbuf = none ∧ s.rxbuf = none ∧
    s.busy = false ∧ s.resp = {} ∧ s.linkOut = none ∧ s.xstatus = none

/-- What stays of an entry of the link trace, and how its outcome may change (R49, R116). -/
def Continues (a b : Transfer) : Prop :=
  b.tag = a.tag ∧ b.link = a.link ∧ b.kind = a.kind ∧
    (b.outcome = a.outcome ∨
      (a.outcome = .pending ∧ (b.outcome = .abandoned ∨ ∃ st rx, b.outcome = .answered st rx)) ∨
      (a.outcome = .abandoned ∧ ∃ st rx, b.outcome = .discarded st rx))

end Sys2Proof.Claims

open Sys2Proof Sys2Proof.Machine Sys2Proof.Claims

/-! ### Encoding -/

/-- Every well-formed instruction of every row, with every operand value (R57, R58, R60, R65, R67, R68). -/
def Obligations.DecodeOfEncodeIsTheInstruction : Prop :=
  ∀ i : Instr, i.wellFormed = true → decode (encode i) = .ok i

/-- R70: an outbound frame that CORE could have written decodes to a well-formed instruction that spells it. -/
def Obligations.FramesCoreCanWriteDecodeWellFormed : Prop :=
  ∀ f : Frame,
    f.b0.toNat = 0xFF → f.b1.toNat = 0x01 → f.b2.toNat ∈ [0x86, 0x87, 0x88, 0x79, 0x99] → sum8 f % 256 = 0 →
    ∃ i, decode (.linkWrite f) = .ok i ∧ i.wellFormed = true ∧ encode i = .linkWrite f

/-- R67: two requests with one op-select that agree on the fields of its format are the same instruction. -/
def Obligations.RequestReadsOnlyTheFieldsOfItsFormat : Prop :=
  ∀ a b : ReqPort, a.op = b.op →
    (a.op.toNat = 0 → a.xfer = b.xfer) →
    (a.op.toNat = 1 → a.present = b.present) →
    (a.op.toNat = 3 → a.span = b.span) →
    (a.op.toNat = 4 → a.abc = b.abc) →
    (a.op.toNat = 5 → a.range = b.range) →
    (a.op.toNat ∈ [6, 10] → a.code = b.code ∧ a.present = b.present ∧ a.size = b.size ∧ a.payload = b.payload) →
    (a.op.toNat ∈ [8, 9, 11] → a.frame = b.frame) →
    decode (.request a) = decode (.request b)

/-- R65: the op-select map, each operation with the operands of its own fields (R67, R68), and the reserved values of R66. -/
def Obligations.OpSelectMapNamesTheOperations : Prop :=
  ∀ r : ReqPort,
    (r.op.toNat = 0 → decode (.request r) = .ok (.init r.xfer)) ∧
    (r.op.toNat = 1 → decode (.request r) = .ok (.getGas r.present)) ∧
    (r.op.toNat = 2 → decode (.request r) = .ok .calZero) ∧
    (r.op.toNat = 3 → decode (.request r) = .ok (.calSpan r.span)) ∧
    (r.op.toNat = 4 → decode (.request r) = .ok (.setAbc r.abc)) ∧
    (r.op.toNat = 5 → decode (.request r) = .ok (.setRange r.range)) ∧
    (r.op.toNat = 6 → decode (.request r) = .ok (.send r.code r.present r.size (payloadOf r.payload))) ∧
    (r.op.toNat = 7 → decode (.request r) = .ok .reserved7) ∧
    (r.op.toNat = 8 → decode (.request r) = .ok (.cksum (frameOf r.frame))) ∧
    (r.op.toNat = 9 → decode (.request r) = .ok (.validate (frameOf r.frame))) ∧
    (r.op.toNat = 10 → decode (.request r) = .ok (.build r.code r.present r.size (payloadOf r.payload))) ∧
    (r.op.toNat = 11 → decode (.request r) = .ok (.parse (frameOf r.frame))) ∧
    (r.op.toNat = 12 → decode (.request r) = .ok .reservedC) ∧
    (r.op.toNat = 13 → decode (.request r) = .ok .reservedD) ∧
    (r.op.toNat = 14 → decode (.request r) = .ok .reservedE) ∧
    (r.op.toNat = 15 → decode (.request r) = .ok .reservedF)

/-- R68, R14: the bytes of a request's payload and frame, of a span value and of a range value, and the join of a
concentration, each with numbers. -/
def Obligations.OperandBytesAreBigEndian : Prop :=
  (∀ P : BitVec 40, let p := Payload.ofBits P
    p.p0.toNat = P.toNat / 2 ^ 32 ∧ p.p1.toNat = P.toNat / 2 ^ 24 % 256 ∧ p.p2.toNat = P.toNat / 2 ^ 16 % 256 ∧
      p.p3.toNat = P.toNat / 2 ^ 8 % 256 ∧ p.p4.toNat = P.toNat % 256) ∧
  (∀ (F : BitVec 72) (i : Fin 9), ((Frame.ofBits F).get i).toNat = F.toNat / 2 ^ (64 - 8 * i.val) % 256) ∧
  (∀ v : BitVec 16, (spanPayload v).p0.toNat = v.toNat / 256 ∧ (spanPayload v).p1.toNat = v.toNat % 256) ∧
  (∀ v : BitVec 32, let p := rangePayload v
    p.p0.toNat = 0 ∧ p.p1.toNat = v.toNat / 2 ^ 24 ∧ p.p2.toNat = v.toNat / 2 ^ 16 % 256 ∧
      p.p3.toNat = v.toNat / 2 ^ 8 % 256 ∧ p.p4.toNat = v.toNat % 256) ∧
  (∀ f : Frame, (ppmOf f).toNat = f.b2.toNat * 256 + f.b3.toNat)

/-- A few words written out from R57, R58, R60 and R65. -/
def Obligations.WordsOfTheSpecDecode : Prop :=
  decode (.request { op := 0b0011, span := 0x07D0 }) = .ok (.calSpan 2000) ∧
  decode (.request { op := 0b0110, code := 0x79, present := true, size := 1, payload := 0x0011223344 }) =
    .ok (.send 0x79 true 1 ⟨0x00, 0x11, 0x22, 0x33, 0x44⟩) ∧
  decode (.request { op := 0b1000, frame := 0xFF018807D000000000 }) =
    .ok (.cksum ⟨0xFF, 0x01, 0x88, 0x07, 0xD0, 0x00, 0x00, 0x00, 0x00⟩) ∧
  decode (.linkWrite (Frame.ofBits 0b111111110000000110000110000000000000000000000000000000000000000001111001)) =
    .ok .frameGetGas ∧
  decode (.linkWrite (Frame.ofBits 0b111111110000000110011001000000000000000000000000000100111000100011001011)) =
    .ok (.frameSetRange 5000 0xCB)

/-! ### Codec -/

/-- R72: the two's-complement negation of the 8-bit sum of offsets 1 to 7. -/
def Obligations.ChecksumNegatesTheByteSum : Prop :=
  ∀ f : Frame, (cksum f).toNat = (256 - sum7 f % 256) % 256

/-- R78, both halves. -/
def Obligations.ChecksumClosesTheSum : Prop :=
  ∀ f : Frame, (sum7 f + (cksum f).toNat) % 256 = 0 ∧ (valid f = true ↔ f.b0.toNat = 0xFF ∧ sum8 f % 256 = 0)

/-- R79. -/
def Obligations.BuiltFramesAreValid : Prop :=
  ∀ (acceptRange : Bool) (k : Byte) (pp : Bool) (n : Byte) (p : Payload),
    encoderGuard acceptRange k pp n = none → valid (assemble k p n.toNat) = true

/-- R80: exactly one offset changed, at any of the nine. -/
def Obligations.SingleByteCorruptionIsDetected : Prop :=
  ∀ (f g : Frame) (i : Fin 9),
    valid f = true → f.get i ≠ g.get i → (∀ j, j ≠ i → f.get j = g.get j) → valid g = false

/-- R81: offsets 1 to 7 count only through their sum, and the spec's example of a swap. -/
def Obligations.SumPreservingChangesGoUndetected : Prop :=
  (∀ f g : Frame, f.b0 = g.b0 → f.b8 = g.b8 → sum7 f % 256 = sum7 g % 256 →
    cksum f = cksum g ∧ (valid f = true → valid g = true)) ∧
  (∀ (f g : Frame) (π : Equiv.Perm (Fin 9)), π 0 = 0 → π 8 = 8 → (∀ i, g.get i = f.get (π i)) →
    valid f = true → valid g = true) ∧
  (valid ⟨0xFF, 0x01, 0xB0, 0x04, 0x00, 0x00, 0x00, 0x00, 0x4B⟩ = true ∧
    ppmOf ⟨0xFF, 0x01, 0xB0, 0x04, 0x00, 0x00, 0x00, 0x00, 0x4B⟩ = 45060)

/-- R76: the template, the command byte, the copied payload, the zero padding and the checksum. -/
def Obligations.AssembledFrameFollowsTheTemplate : Prop :=
  ∀ (k : Byte) (p : Payload) (n : Nat), n ≤ 5 → assemble k p n = payloadFrame k p n

/-- R74, for both values of the parameter. -/
def Obligations.AcceptanceSetOfTheEncoder : Prop :=
  ∀ k : Byte,
    (accepted false k = true ↔ k.toNat ∈ [0x86, 0x87, 0x88, 0x79]) ∧
    (accepted true k = true ↔ k.toNat ∈ [0x86, 0x87, 0x88, 0x79, 0x99])

/-- R102, for both orders. -/
def Obligations.GuardOrderPicksTheFirstFailure : Prop :=
  ∀ sf pf : Option ResultCode,
    firstFailure .stateFirst sf pf = (if sf ≠ none then sf else pf) ∧
    firstFailure .paramFirst sf pf = (if pf ≠ none then pf else sf)

/-- The numbers of R99: distinct, in the order of its table, 7 unused. -/
def Obligations.ResultCodesHaveTheirNumbers : Prop :=
  [ResultCode.success, .alreadyInitialized, .notInitialized, .badParameter, .generalError, .ioError,
    .invalidResponse].map (fun c => c.toBits.toNat) = [0, 1, 2, 3, 4, 5, 6] ∧
  (∀ c : ResultCode, ResultCode.ofBits c.toBits = some c) ∧
  (∀ v : BitVec 3, ResultCode.ofBits v = none ↔ v.toNat = 7)

/-! ### The request operations -/

/-- R90: the four cases of INIT and all it leaves unchanged. -/
def Obligations.InitBindsOnceAndOnlyAPresentFunction : Prop :=
  ∀ (s : State) (r : ReqPort) (x : Option XferRef), s.phase = .idle → s.opl = some r →
    exec (.init x) s = .next
      (match s.init, x with
      | false, some l => finished { s with init := true, xfer := some l } r { status := some .success }
      | false, none => finished s r { status := some .badParameter }
      | true, some _ => finished s r { status := some .alreadyInitialized }
      | true, none =>
        finished s r { status := some (match s.cfg.guardOrder with
          | .stateFirst => .alreadyInitialized
          | .paramFirst => .badParameter) })

/-- R91 up to the write: GET_GAS issues its fixed frame, or fails a check with `resp.ppm_we = 0`. -/
def Obligations.GetGasIssuesItsFrameOrFailsACheck : Prop :=
  ∀ (s : State) (r : ReqPort) (present : Bool), s.phase = .idle → s.opl = some r →
    exec (.getGas present) s = .next
      (if s.init = true ∧ present = true then writing s gasFrame
      else finished s r { status := some (reportedFailure s.cfg.guardOrder s.init present), ppmWe := some false })

/-- R92, R93, R94 up to the write: the three commands without a parameter check. -/
def Obligations.CalibrationAndAbcIssueTheirFrames : Prop :=
  ∀ (s : State) (r : ReqPort), s.phase = .idle → s.opl = some r →
    (exec .calZero s = .next
      (if s.init = true then writing s ⟨0xFF, 0x01, 0x87, 0x00, 0x00, 0x00, 0x00, 0x00, 0x78⟩
      else finished s r { status := some .notInitialized })) ∧
    (∀ v, exec (.calSpan v) s = .next
      (if s.init = true then writing s (spanFrame v) else finished s r { status := some .notInitialized })) ∧
    (∀ e : Bool, exec (.setAbc e) s = .next
      (if s.init = true then writing s (commandFrame 0x79 (if e then s.cfg.abcOn else 0) 0 0 0 0)
      else finished s r { status := some .notInitialized }))

/-- R95 up to the write, for every selector. -/
def Obligations.SetRangeIssuesOneOfThreeFrames : Prop :=
  ∀ (s : State) (r : ReqPort) (q : Byte), s.phase = .idle → s.opl = some r →
    exec (.setRange q) s = .next
      (match s.init, rangeFrame q with
      | true, some f => writing s f
      | i, f => finished s r { status := some (reportedFailure s.cfg.guardOrder i f.isSome) })

/-- R96 up to the write, for every code, presence bit, size and payload. -/
def Obligations.SendIssuesTheFrameTheGuardPasses : Prop :=
  ∀ (s : State) (r : ReqPort) (k : Byte) (pp : Bool) (n : Byte) (p : Payload), s.phase = .idle → s.opl = some r →
    exec (.send k pp n p) s = .next
      (if s.init = true ∧ sendable s.cfg.acceptRange k pp n = true then writing s (payloadFrame k p n.toNat)
      else finished s r
        { status := some (reportedFailure s.cfg.guardOrder s.init (sendable s.cfg.acceptRange k pp n)) })

/-- R83. -/
def Obligations.CksumDrivesTheChecksum : Prop :=
  ∀ (s : State) (r : ReqPort) (f : Frame), s.phase = .idle → s.opl = some r →
    exec (.cksum f) s = .next (finished s r
      { status := some .success, cksum := some (BitVec.ofNat 8 (256 - sum7 f % 256)) })

/-- R84. -/
def Obligations.ValidateDrivesTheVerdict : Prop :=
  ∀ (s : State) (r : ReqPort) (f : Frame), s.phase = .idle → s.opl = some r →
    exec (.validate f) s = .next (finished s r { status := some .success, valid := some (intact f) })

/-- R85, R77: the frame is driven exactly when the guard passes; INIT plays no part. -/
def Obligations.BuildDrivesTheFrameTheGuardPasses : Prop :=
  ∀ (s : State) (r : ReqPort) (k : Byte) (pp : Bool) (n : Byte) (p : Payload), s.phase = .idle → s.opl = some r →
    exec (.build k pp n p) s = .next (finished s r
      (if sendable s.cfg.acceptRange k pp n then { status := some .success, frame := some (payloadFrame k p n.toNat) }
      else { status := some .badParameter }))

/-- R86, R75: both outputs are driven for every frame. -/
def Obligations.ParseDrivesConcentrationAndVerdict : Prop :=
  ∀ (s : State) (r : ReqPort) (f : Frame), s.phase = .idle → s.opl = some r →
    exec (.parse f) s = .next (finished s r
      { status := some .success
        ppm := some (BitVec.ofNat 16 (f.b2.toNat * 256 + f.b3.toNat))
        valid := some (intact f) })

/-- R66, for the five reserved op-selects. -/
def Obligations.ReservedSelectsCompleteWithBadParameter : Prop :=
  ∀ (s : State) (r : ReqPort), s.phase = .idle → s.opl = some r →
    ∀ i ∈ [Instr.reserved7, .reservedC, .reservedD, .reservedE, .reservedF],
      exec i s = .next (finished s r { status := some .badParameter })

/-- R66, R83 to R86, R90 whole, from the port: a request that needs no transfer completes in the step that accepts it, with
the operands taken from its own fields (R68), nothing else changed and nothing left latched. -/
def Obligations.RequestsWithoutATransferCompleteAtOnce : Prop :=
  ∀ (s : State) (r : ReqPort) (rest : List Event), s.phase = .idle → s.inbox = .request r :: rest →
    (r.op.toNat = 0 → step s = .next
      (match s.init, r.xfer with
      | false, some l => finished { s with inbox := rest, init := true, xfer := some l } r { status := some .success }
      | i, x => finished { s with inbox := rest } r
        { status := some (initFailure s.cfg.guardOrder i x.isSome) })) ∧
    (r.op.toNat ∈ [7, 12, 13, 14, 15] →
      step s = .next (finished { s with inbox := rest } r { status := some .badParameter })) ∧
    (r.op.toNat = 8 → step s = .next (finished { s with inbox := rest } r
      { status := some .success
        cksum := some (BitVec.ofNat 8 (256 - sum7 (frameOf r.frame) % 256)) })) ∧
    (r.op.toNat = 9 → step s = .next (finished { s with inbox := rest } r
      { status := some .success, valid := some (intact (frameOf r.frame)) })) ∧
    (r.op.toNat = 10 → step s = .next (finished { s with inbox := rest } r
      (if sendable s.cfg.acceptRange r.code r.present r.size then
        { status := some .success, frame := some (payloadFrame r.code (payloadOf r.payload) r.size.toNat) }
      else { status := some .badParameter }))) ∧
    (r.op.toNat = 11 → step s = .next (finished { s with inbox := rest } r
      { status := some .success
        ppm := some (BitVec.ofNat 16 (r.frame.toNat / 2 ^ 40))
        valid := some (intact (frameOf r.frame)) }))

/-- A request while busy is the overlap fault (R119, R120), for each of the sixteen op-selects. That it is so for the five
reserved ones too, where R66 and L2.10 say "any state", is the model's choice (log entry 18). -/
def Obligations.RequestWhileBusyFaults : Prop :=
  ∀ (s : State) (r : ReqPort) (rest : List Event), s.phase ≠ .idle → s.inbox = .request r :: rest →
    step s = .fault .requestOverlap

/-! ### The frames on the link -/

/-- The six write frames: LINK's answer takes the operation in OPL on (R26, R88, R89, R91, R103; log entry 4). -/
def Obligations.AnsweredWriteTakesTheOperationOn : Prop :=
  AnswerTakesOn .frameGetGas gasFrame ∧
  AnswerTakesOn .frameCalZero ⟨0xFF, 0x01, 0x87, 0x00, 0x00, 0x00, 0x00, 0x00, 0x78⟩ ∧
  (∀ v c, AnswerTakesOn (.frameCalSpan v c)
    ⟨0xFF, 0x01, 0x88, BitVec.ofNat 8 (v.toNat / 256), BitVec.ofNat 8 v.toNat, 0, 0, 0, c⟩) ∧
  (∀ a c, AnswerTakesOn (.frameSetAbc a c) ⟨0xFF, 0x01, 0x79, a, 0, 0, 0, 0, c⟩) ∧
  (∀ v c, AnswerTakesOn (.frameSetRange v c)
    ⟨0xFF, 0x01, 0x99, 0, BitVec.ofNat 8 (v.toNat / 2 ^ 24), BitVec.ofNat 8 (v.toNat / 2 ^ 16),
      BitVec.ofNat 8 (v.toNat / 2 ^ 8), BitVec.ofNat 8 v.toNat, c⟩) ∧
  (∀ k p c, AnswerTakesOn (.frameRequest k p c) ⟨0xFF, 0x01, k, p.p0, p.p1, p.p2, p.p3, p.p4, c⟩)

/-- Where the write frames stop, and where they wait (R118, R122). That a frame row is refused there and waits there is the
model's choice (log entries 2, 4, 9 and 10). -/
def Obligations.WriteFrameOutsideItsTransferIsRefused : Prop :=
  NeedsItsTransfer .frameGetGas gasFrame ∧
  NeedsItsTransfer .frameCalZero ⟨0xFF, 0x01, 0x87, 0x00, 0x00, 0x00, 0x00, 0x00, 0x78⟩ ∧
  (∀ v c, NeedsItsTransfer (.frameCalSpan v c)
    ⟨0xFF, 0x01, 0x88, BitVec.ofNat 8 (v.toNat / 256), BitVec.ofNat 8 v.toNat, 0, 0, 0, c⟩) ∧
  (∀ a c, NeedsItsTransfer (.frameSetAbc a c) ⟨0xFF, 0x01, 0x79, a, 0, 0, 0, 0, c⟩) ∧
  (∀ v c, NeedsItsTransfer (.frameSetRange v c)
    ⟨0xFF, 0x01, 0x99, 0, BitVec.ofNat 8 (v.toNat / 2 ^ 24), BitVec.ofNat 8 (v.toNat / 2 ^ 16),
      BitVec.ofNat 8 (v.toNat / 2 ^ 8), BitVec.ofNat 8 v.toNat, c⟩) ∧
  (∀ k p c, NeedsItsTransfer (.frameRequest k p c) ⟨0xFF, 0x01, k, p.p0, p.p1, p.p2, p.p3, p.p4, c⟩)

/-- FRAME.RESPONSE: the end of GET_GAS for every status of the result set and all nine bytes (R15, R63, R91). That the row
stands for this step (log entry 4), that it is refused outside the read or with a status outside the set (R118; log entries 9
and 10) and that unanswered it leaves the state as it is (R122; log entry 2) is the model's choice. -/
def Obligations.ResponseFrameEndsGetGas : Prop :=
  ∀ (s : State) (g : Frame),
    (∀ r st, s.phase = .waitRead → s.opl = some r → s.xstatus = some st → InSet s.cfg.policy st →
      exec (.frameResponse g) s = .next (finished s r (gasResponse s.cfg st g))) ∧
    (s.phase ≠ .waitRead → exec (.frameResponse g) s = .refused .linkContract) ∧
    (∀ st, s.phase = .waitRead → s.xstatus = some st → ¬ InSet s.cfg.policy st →
      exec (.frameResponse g) s = .refused .linkContract) ∧
    (s.phase = .waitRead → s.xstatus = none → exec (.frameResponse g) s = .next s)

/-! ### The step -/

/-- A request at the head of the inbox runs as its decoded instruction, once it is latched (R6, R54, R87). That the response
fields lose their values when it is accepted is the model's choice (log entry 8), and so is the inbox (log entry 1). -/
def Obligations.StepRunsTheRequestedInstruction : Prop :=
  ∀ (s : State) (r : ReqPort) (rest : List Event) (i : Instr),
    s.inbox = .request r :: rest → decode (.request r) = .ok i →
    step s = exec i { s with inbox := rest, opl := some r, resp := {} }

/-- LINK's answer to a pending transfer runs as the frame on the link, once its status is sampled and the trace holds the
answer (R32, R49). That a frame on the link runs as an instruction (log entry 4), that answers are numbered (log entry 9) and
that the answer and CORE's reaction are one step, where R125 says "in the step after" (log entry 17), is the model's choice. -/
def Obligations.StepRunsTheAnsweredFrame : Prop :=
  ∀ (s : State) (tag : Nat) (st : ResultCode) (rx : Option Frame) (rest : List Event) (u : Transfer) (i : Instr),
    s.inbox = .answer tag st rx :: rest → s.transfers.find? (fun t => t.tag == tag) = some u → u.outcome = .pending →
    ((∃ f, u.kind = .write f ∧ rx = none ∧ decode (.linkWrite f) = .ok i) ∨
      (∃ g, u.kind = .read ∧ rx = some g ∧ decode (.linkRead g) = .ok i)) →
    step s = exec i { s with
      inbox := rest
      xstatus := some st
      transfers := s.transfers.map fun t => if t.tag = tag then { t with outcome := .answered st rx } else t }

/-- R124 on the response port: HOST's read of a field with no value is a fault, any other changes nothing. -/
def Obligations.HostReadOfAnUndrivenFieldFaults : Prop :=
  ∀ (s : State) (field : RespField) (rest : List Event), s.inbox = .hostRead field :: rest →
    step s =
      if (match field with
        | .status => s.resp.status.isSome
        | .frame => s.resp.frame.isSome
        | .cksum => s.resp.cksum.isSome
        | .valid => s.resp.valid.isSome
        | .ppm => s.resp.ppm.isSome
        | .ppmWe => s.resp.ppmWe.isSome) = true
      then .next { s with inbox := rest } else .fault .readNoValue

/-- R39, R115: each element after reset, for the reset state and for a reset taken in any state. -/
def Obligations.ResetGivesEveryElementItsValue : Prop :=
  AtReset State.reset ∧
  ∀ (s : State) (rest : List Event), s.inbox = .reset :: rest →
    ∃ t, step s = .next t ∧ AtReset t ∧ t.inbox = rest

/-- R116: a reset abandons the operation in progress, and the record of its transfer then says nothing of the line. From then
on, whenever LINK's answer to an abandoned transfer comes, also while a later operation waits, it changes only that record
(log entry 11). -/
def Obligations.ResetAbandonsTheOperationInProgress : Prop :=
  (∀ (s : State) (u : Transfer) (older : List Transfer) (rest : List Event),
    Inv s → s.phase ≠ .idle → s.transfers = u :: older → s.inbox = .reset :: rest →
    ∃ t, step s = .next t ∧ Inv t ∧ t.phase = .idle ∧ t.resp = {} ∧ t.exchanges = s.exchanges ∧ t.inbox = rest ∧
      t.transfers = { u with outcome := .abandoned } :: older) ∧
  (∀ (s : State) (newer older : List Transfer) (u : Transfer) (st : ResultCode) (rx : Option Frame) (rest : List Event),
    Inv s → s.transfers = newer ++ u :: older → u.outcome = .abandoned →
    rx.isSome = decide (u.kind = .read) → InSet s.cfg.policy st → s.inbox = .answer u.tag st rx :: rest →
    step s = .next
      { s with inbox := rest, transfers := newer ++ { u with outcome := .discarded st rx } :: older })

/-! ### Whole operations -/

/-- R92 to R96: a one-write command either fails its checks in one step, with no transfer, or writes its frame and
completes with LINK's status, any code of the result set (R15), in the step that takes LINK's answer; nothing is read. -/
def Obligations.CommandsWriteOneFrameAndReturnLinksStatus : Prop :=
  ∀ (s : State) (r : ReqPort) (rest : List Event), Inv s → s.phase = .idle → 2 ≤ r.op.toNat → r.op.toNat ≤ 6 →
    (∀ f, s.init = true → commandOf s.cfg r = some f → ∀ st, InSet s.cfg.policy st →
      s.inbox = .request r :: .answer s.transfers.length st none :: rest →
      Sys2Proof.core.run 2 s =
        .next (served s rest r { status := some st } [written s s.transfers.length f st])) ∧
    (s.init = false ∨ commandOf s.cfg r = none → s.inbox = .request r :: rest →
      Sys2Proof.core.run 1 s =
        .next (served s rest r
          { status := some (reportedFailure s.cfg.guardOrder s.init (commandOf s.cfg r).isSome) } []))

/-- R91 whole: a failed check, a failed write (no read is issued), and the write followed by the read. -/
def Obligations.GetGasWritesReadsAndExtracts : Prop :=
  ∀ (s : State) (r : ReqPort) (rest : List Event), Inv s → s.phase = .idle → r.op = 0x1 →
    (s.init = false ∨ r.present = false → s.inbox = .request r :: rest →
      Sys2Proof.core.run 1 s = .next (served s rest r
        { status := some (reportedFailure s.cfg.guardOrder s.init r.present), ppmWe := some false } [])) ∧
    (s.init = true → r.present = true →
      (∀ st, st ≠ .success → InSet s.cfg.policy st → s.inbox = .request r :: .answer s.transfers.length st none :: rest →
        Sys2Proof.core.run 2 s = .next (served s rest r
          { status := some st, ppmWe := some false } [written s s.transfers.length gasFrame st])) ∧
      (∀ st g, InSet s.cfg.policy st →
        s.inbox = .request r :: .answer s.transfers.length .success none ::
          .answer (s.transfers.length + 1) st (some g) :: rest →
        Sys2Proof.core.run 3 s = .next (served s rest r (gasResponse s.cfg st g)
          [{ tag := s.transfers.length + 1, link := s.xfer, kind := .read, outcome := .answered st (some g) },
            written s s.transfers.length gasFrame .success])))

/-! ### Invariants and whole-machine rules -/

/-- The invariant holds at reset. -/
def Obligations.ResetStateMeetsTheInvariant : Prop := Inv State.reset

/-- Every step keeps the invariant: lifecycle and binding agree (R25), nothing is held between operations (R27 to R29),
exactly the transfer CORE waits for is pending (R51), only GET_GAS reads (R41), and every write on the link trace is a
frame CORE may write (R62, R70). -/
def Obligations.EveryStepKeepsTheInvariant : Prop :=
  ∀ s t : State, Inv s → step s = .next t → Inv t

/-- R25, for every state. -/
def Obligations.InitializedExactlyWhenBound : Prop :=
  (State.reset.init = State.reset.xfer.isSome) ∧
  ∀ s t : State, s.init = s.xfer.isSome → step s = .next t → t.init = t.xfer.isSome

/-- R127 with R17, R118, R119, R124: from a sound state an input that respects the contract never stops the machine, and
each breach stops it under its own name. That a breach of LINK's is refused (log entries 9 and 10), and that a reserved
op-select while busy is a breach of HOST's (log entry 18), is the model's choice. -/
def Obligations.OnlyABreachOfContractStopsCore : Prop :=
  ∀ s : State, Inv s →
    (s.obeys = true → ∃ t, step s = .next t) ∧
    (s.obeys = false →
      (∃ r rest, s.inbox = .request r :: rest ∧ step s = .fault .requestOverlap) ∨
      (∃ field rest, s.inbox = .hostRead field :: rest ∧ step s = .fault .readNoValue) ∨
      (∃ tag st rx rest, s.inbox = .answer tag st rx :: rest ∧ step s = .refused .linkContract))

/-- R23, R24, R97: INIT and XFER change only by an INIT that completes with Success, or by reset. -/
def Obligations.OnlyInitAndResetChangeTheLifecycle : Prop :=
  ∀ s t : State, Inv s → step s = .next t → (t.init ≠ s.init ∨ t.xfer ≠ s.xfer) →
    (∃ rest, s.inbox = .reset :: rest ∧ t.init = false ∧ t.xfer = none) ∨
    (∃ r rest l, s.inbox = .request r :: rest ∧ r.op.toNat = 0 ∧ r.xfer = some l ∧ s.init = false ∧
      t.init = true ∧ t.xfer = some l ∧ t.resp = { status := some .success })

/-- R97: whenever an operation completes, PHASE is IDLE and OPL, TXBUF and RXBUF hold no value; INIT and XFER are as before
unless the operation is an INIT that completed with Success. -/
def Obligations.CompletionLeavesNothingBehind : Prop :=
  ∀ (s t : State), Inv s → step s = .next t → t.exchanges ≠ s.exchanges →
    t.phase = .idle ∧ t.opl = none ∧ t.txbuf = none ∧ t.rxbuf = none ∧
      (∃ e, t.exchanges = e :: s.exchanges ∧ e.resp = t.resp ∧
        ((t.init = s.init ∧ t.xfer = s.xfer) ∨ (e.req.op.toNat = 0 ∧ e.resp.status = some .success)))

/-- R49, R51, R89: the link trace never drops, merges, duplicates or replays a transfer. Every entry stays in its place and
never changes but for its answer, or for its abandonment by a reset. A step adds nothing, or one pending entry with the next
number, to the bound LINK: the write of TXBUF, in the step that accepts a request, or the read of a GET_GAS whose write was
just answered Success. No other input issues one, so CORE retries nothing. -/
def Obligations.LinkTraceNeverDropsOrReplays : Prop :=
  ∀ s t : State, Inv s → step s = .next t →
    ∃ new old, t.transfers = new ++ old ∧ List.Forall₂ Continues s.transfers old ∧
      (new = [] ∨ ∃ kind,
        new = [{ tag := s.transfers.length, link := s.xfer, kind := kind, outcome := .pending }] ∧
        ((∃ r rest f, s.inbox = .request r :: rest ∧ s.phase = .idle ∧ t.phase = .waitWrite ∧ t.txbuf = some f ∧
            kind = .write f) ∨
          (∃ tag rest r, s.inbox = .answer tag .success none :: rest ∧ s.phase = .waitWrite ∧ s.opl = some r ∧
            r.op = 0x1 ∧ t.phase = .waitRead ∧ kind = .read)))

/-- R50, R103: a request that completes in the step it is accepted in has issued no transfer, and one that does not has
issued exactly one write. -/
def Obligations.RejectedRequestIssuesNoTransfer : Prop :=
  ∀ (s t : State) (r : ReqPort) (rest : List Event), Inv s → s.inbox = .request r :: rest → step s = .next t →
    (t.phase = .idle ∧ t.transfers = s.transfers ∧ ∃ e, t.exchanges = e :: s.exchanges) ∨
    (t.phase = .waitWrite ∧ t.exchanges = s.exchanges ∧
      ∃ f, t.transfers = { tag := s.transfers.length, link := s.xfer, kind := .write f, outcome := .pending } :: s.transfers)

/-- R26: the transitions of PHASE, and which operation and which answer take each. -/
def Obligations.PhaseMovesAsTheSequencerSays : Prop :=
  ∀ s t : State, Inv s → step s = .next t → t.phase ≠ s.phase →
    (∃ rest, s.inbox = .reset :: rest ∧ t.phase = .idle) ∨
    (∃ r rest, s.inbox = .request r :: rest ∧ s.phase = .idle ∧ t.phase = .waitWrite) ∨
    (∃ tag st rest, s.inbox = .answer tag st none :: rest ∧ s.phase = .waitWrite ∧
      ((t.phase = .waitRead ∧ st = .success ∧ ∃ r, s.opl = some r ∧ r.op = 0x1) ∨
        (t.phase = .idle ∧ (st ≠ .success ∨ ∃ r, s.opl = some r ∧ r.op ≠ 0x1)))) ∨
    (∃ tag st g rest, s.inbox = .answer tag st (some g) :: rest ∧ s.phase = .waitRead ∧ t.phase = .idle)

/-- R41, R98: a read transfer is issued only by GET_GAS, in the step in which its write is answered Success. -/
def Obligations.OnlyGetGasReadsTheLink : Prop :=
  ∀ (s t : State) (u : Transfer), Inv s → step s = .next t → t.transfers.length = s.transfers.length + 1 →
    t.transfers.head? = some u → u.kind = .read →
    ∃ tag rest r, s.inbox = .answer tag .success none :: rest ∧ s.phase = .waitWrite ∧ s.opl = some r ∧ r.op = 0x1

/-- R22, R37, R123: what a request does depends on INIT, XFER and the parameters alone, not on anything an earlier operation
left: two idle machines that agree on those answer the same request alike. -/
def Obligations.NoOperationReadsWhatAnotherLeft : Prop :=
  ∀ (s s' : State) (r : ReqPort) (rest rest' : List Event), Inv s → Inv s' → s.phase = .idle → s'.phase = .idle →
    s.init = s'.init → s.xfer = s'.xfer → s.cfg = s'.cfg →
    s.inbox = .request r :: rest → s'.inbox = .request r :: rest' →
    ∃ t t', step s = .next t ∧ step s' = .next t' ∧
      t.init = t'.init ∧ t.xfer = t'.xfer ∧ t.phase = t'.phase ∧ t.opl = t'.opl ∧ t.txbuf = t'.txbuf ∧
      t.rxbuf = t'.rxbuf ∧ t.resp = t'.resp ∧ t.xstatus = t'.xstatus ∧ t.linkOut = t'.linkOut

/-- The parameters are fixed and the inputs are taken in order, one a step (R8 to R11, R51; log entries 1 and 3). -/
def Obligations.ParametersStandAndInputsGoInOrder : Prop :=
  ∀ s t : State, step s = .next t → t.cfg = s.cfg ∧ t.inbox = s.inbox.tail

/-- R15: no code outside the result set is ever driven on `resp.status`, recorded in a pair, or taken from LINK. That an
answer of LINK with such a code is refused is log entry 10. -/
def Obligations.ResultCodesStayInTheirSet : Prop :=
  CodesInSet State.reset ∧ ∀ s t : State, Inv s → CodesInSet s → step s = .next t → CodesInSet t

/-- R126: a run is observed in the first state in which CORE is idle and no request is to come, whatever other inputs are,
and that observation is the pairs, the link trace, both oldest first, and the final INIT and XFER. -/
def Obligations.ARunIsObservedWhereItEnds : Prop :=
  ∀ (n : Nat) (s : State) (o : Observation),
    observeRun n s = some o ↔
      ∃ k t, k ≤ n ∧ Sys2Proof.core.run k s = .next t ∧ Ended t ∧
        (∀ j u, j < k → Sys2Proof.core.run j s = .next u → ¬ Ended u) ∧
        o.exchanges = t.exchanges.reverse ∧ o.transfers = t.transfers.reverse ∧ o.init = t.init ∧ o.xfer = t.xfer
end

