-- ==== Sys2Proof/Laws/Operands.lean ====
section
/-! SUPPORT. The byte splits and joins undo one another (R14, R68). -/

namespace Sys2Proof

theorem getLsbD_append_byte {n : Nat} (x : BitVec n) (y : Byte) (i : Nat) :
    (x ++ y).getLsbD i = if i < 8 then y.getLsbD i else x.getLsbD (i - 8) := by
  simp [BitVec.getLsbD_append]

@[simp] theorem Frame.ofBits_toBits (f : Frame) : Frame.ofBits f.toBits = f := by
  obtain ⟨b0, b1, b2, b3, b4, b5, b6, b7, b8⟩ := f
  simp only [Frame.ofBits, Frame.toBits, Frame.mk.injEq]
  refine ⟨?_, ?_, ?_, ?_, ?_, ?_, ?_, ?_, ?_⟩ <;>
    (ext i hi; simp only [BitVec.getElem_extractLsb', getLsbD_append_byte]; interval_cases i <;> simp [← BitVec.getLsbD_eq_getElem])

@[simp] theorem Payload.ofBits_toBits (p : Payload) : Payload.ofBits p.toBits = p := by
  obtain ⟨p0, p1, p2, p3, p4⟩ := p
  simp only [Payload.ofBits, Payload.toBits, Payload.mk.injEq]
  refine ⟨?_, ?_, ?_, ?_, ?_⟩ <;>
    (ext i hi; simp only [BitVec.getElem_extractLsb', getLsbD_append_byte]; interval_cases i <;> simp [← BitVec.getLsbD_eq_getElem])

@[simp] theorem hiByte_append_loByte (v : BitVec 16) : hiByte v ++ loByte v = v := by
  apply BitVec.eq_of_getLsbD_eq
  intro i hi
  simp only [hiByte, loByte, getLsbD_append_byte, BitVec.getLsbD_extractLsb']
  interval_cases i <;> simp

@[simp] theorem spanBytes_of_append (a b : Byte) : hiByte (a ++ b) = a ∧ loByte (a ++ b) = b := by
  constructor <;>
    (ext i hi; simp only [hiByte, loByte, BitVec.getElem_extractLsb', getLsbD_append_byte]; interval_cases i <;> simp [← BitVec.getLsbD_eq_getElem])

/-- The four bytes of a 32-bit range value join back to it. -/
theorem rangeBytes_append (v : BitVec 32) :
    (rangePayload v).p1 ++ (rangePayload v).p2 ++ (rangePayload v).p3 ++ (rangePayload v).p4 = v := by
  apply BitVec.eq_of_getLsbD_eq
  intro i hi
  simp only [rangePayload, getLsbD_append_byte, BitVec.getLsbD_extractLsb']
  interval_cases i <;> simp

theorem rangePayload_of_append (a b c d : Byte) : rangePayload (a ++ b ++ c ++ d) = ⟨0, a, b, c, d⟩ := by
  simp only [rangePayload, Payload.mk.injEq, true_and]
  refine ⟨?_, ?_, ?_, ?_⟩ <;>
    (ext i hi; simp only [BitVec.getElem_extractLsb', getLsbD_append_byte]; interval_cases i <;> simp [← BitVec.getLsbD_eq_getElem])

/-- No result code's number stands for another (R99). -/
@[simp] theorem ResultCode.ofBits_toBits (c : ResultCode) : ResultCode.ofBits c.toBits = some c := by
  cases c <;> decide

/-- Selectors 0, 1 and 2 name a range, the others none (R61). -/
theorem rangeValue_isSome (r : Byte) : (rangeValue r).isSome = decide (r.toNat ≤ 2) := by
  unfold rangeValue
  split_ifs with h0 h1 h2
  · simp [h0]
  · simp [h1]
  · simp [h2]
  · have : ¬ r.toNat ≤ 2 := by
      intro h
      have : r = BitVec.ofNat 8 r.toNat := by simp
      rcases (by omega : r.toNat = 0 ∨ r.toNat = 1 ∨ r.toNat = 2) with e | e | e <;> rw [e] at this <;> tauto
    simp [this]

end Sys2Proof
end

