-- ==== Sys2Proof/Laws/Codec.lean ====
section
/-! SUPPORT. Spec lemmas of the codec's pure functions (R72 to R77). -/

namespace Sys2Proof.Machine

/-- The checksum is the negation of the sum (R72). -/
theorem cksum_eq_neg (f : Frame) : cksum f = -(bodySum f) := by
  simp [cksum, BitVec.neg_eq_not_add]

/-- Sum and checksum cancel. -/
@[simp] theorem bodySum_add_cksum (f : Frame) : bodySum f + cksum f = 0 := by
  rw [cksum_eq_neg]; exact BitVec.add_right_neg _

/-- Offsets 0 and 8 are not read (R72). -/
@[simp] theorem cksum_sealFrame (f : Frame) : cksum (sealFrame f) = cksum f := rfl

@[simp] theorem sealFrame_b8 (f : Frame) : (sealFrame f).b8 = cksum f := rfl

/-- What `valid` compares (R73). -/
theorem valid_iff (f : Frame) : valid f = true ↔ f.b0 = startMarker ∧ f.b8 = cksum f := by
  simp [valid]

@[simp] theorem assemble_b0 (k : Byte) (p : Payload) (n : Nat) : (assemble k p n).b0 = startMarker := rfl
@[simp] theorem assemble_b1 (k : Byte) (p : Payload) (n : Nat) : (assemble k p n).b1 = deviceByte := rfl
@[simp] theorem assemble_b2 (k : Byte) (p : Payload) (n : Nat) : (assemble k p n).b2 = k := rfl
@[simp] theorem assemble_b8 (k : Byte) (p : Payload) (n : Nat) :
    (assemble k p n).b8 = cksum (assemble k p n) := rfl

/-- An assembled frame with a code of R59 is one CORE could have written (R70). -/
theorem couldHaveWritten_assemble (k : Byte) (p : Payload) (n : Nat) :
    couldHaveWritten (assemble k p n) = knownCommand k := by
  simp [couldHaveWritten, ← assemble_b8]

/-- An accepted code is a code of R59, whatever the parameter (R59, R74). -/
theorem knownCommand_of_accepted {b : Bool} {k : Byte} (h : accepted b k = true) : knownCommand k = true := by
  cases b
  · simp only [knownCommand, accepted, Bool.false_and, Bool.or_false, Bool.true_and, Bool.or_eq_true] at h ⊢
    exact .inl h
  · exact h

/-- When the guard passes (R77). -/
theorem encoderGuard_eq_none {b : Bool} {k : Byte} {pp : Bool} {n : Byte} :
    encoderGuard b k pp n = none ↔ accepted b k = true ∧ (pp = true ↔ n ≠ 0) ∧ n.toNat ≤ 5 := by
  unfold encoderGuard
  have key : ((pp == false) != (n == 0)) = true ↔ ¬ (pp = true ↔ n ≠ 0) := by
    cases pp <;> simp
  split_ifs with h1 h2 h3
  · simp [h1]
  · simp only [key] at h2
    simp only [false_iff]
    exact fun h => h2 h.2.1
  · simp only [maxPayload] at h3
    simp only [false_iff]
    rintro ⟨-, -, h⟩; omega
  · simp only [key, not_not] at h2
    simp only [maxPayload, not_lt] at h3
    simp only [Bool.not_eq_false] at h1
    simp only [h1, h3, true_and, and_true, true_iff]
    exact h2

/-- A failing guard gives BadParameter, whichever check fails (R77). -/
theorem encoderGuard_eq_some {b : Bool} {k : Byte} {pp : Bool} {n : Byte} {e : ResultCode}
    (h : encoderGuard b k pp n = some e) : e = .badParameter := by
  unfold encoderGuard at h
  split_ifs at h <;> simp_all

theorem encoderGuard_ne {b : Bool} {k : Byte} {pp : Bool} {n : Byte} :
    encoderGuard b k pp n ≠ some .invalidResponse := fun h => nomatch encoderGuard_eq_some h

end Sys2Proof.Machine

namespace Sys2Proof

/-- The row an outbound frame decodes to spells that frame. -/
theorem encode_of_decodeWrite {f : Frame} {i : Instr} (h : decodeWrite f = .ok i) : encode i = .linkWrite f := by
  obtain ⟨b0, b1, b2, b3, b4, b5, b6, b7, b8⟩ := f
  unfold decodeWrite at h
  split_ifs at h <;>
    simp only [Except.ok.injEq, not_not] at * <;> subst h <;>
    simp_all [encode, Machine.calSpanFrame, Machine.setAbcFrame, Machine.setRangeFrame, Machine.requestFrame,
      spanPayload, abcPayload, rangePayload_of_append]

/-- An outbound frame with bytes 0 and 1 of a request frame always decodes (R57). -/
theorem decodeWrite_ok {f : Frame} (h0 : f.b0 = startMarker) (h1 : f.b1 = deviceByte) : ∃ i, decodeWrite f = .ok i := by
  unfold decodeWrite
  split_ifs <;> simp_all

end Sys2Proof
end

