-- ==== Sys2Proof/Laws/State.lean ====
section
/-! SUPPORT. One lemma per field and named update of State, so that no later proof unfolds a record update. -/

namespace Sys2Proof.Machine

/-! ### latch -/

@[simp] theorem State.latch_init (r : ReqPort) (s : State) : (s.latch r).init = s.init := rfl
@[simp] theorem State.latch_xfer (r : ReqPort) (s : State) : (s.latch r).xfer = s.xfer := rfl
@[simp] theorem State.latch_phase (r : ReqPort) (s : State) : (s.latch r).phase = s.phase := rfl
@[simp] theorem State.latch_opl (r : ReqPort) (s : State) : (s.latch r).opl = some r := rfl
@[simp] theorem State.latch_txbuf (r : ReqPort) (s : State) : (s.latch r).txbuf = s.txbuf := rfl
@[simp] theorem State.latch_rxbuf (r : ReqPort) (s : State) : (s.latch r).rxbuf = s.rxbuf := rfl
@[simp] theorem State.latch_resp (r : ReqPort) (s : State) : (s.latch r).resp = {} := rfl
@[simp] theorem State.latch_xstatus (r : ReqPort) (s : State) : (s.latch r).xstatus = s.xstatus := rfl
@[simp] theorem State.latch_cfg (r : ReqPort) (s : State) : (s.latch r).cfg = s.cfg := rfl
@[simp] theorem State.latch_inbox (r : ReqPort) (s : State) : (s.latch r).inbox = s.inbox := rfl
@[simp] theorem State.latch_transfers (r : ReqPort) (s : State) : (s.latch r).transfers = s.transfers := rfl
@[simp] theorem State.latch_exchanges (r : ReqPort) (s : State) : (s.latch r).exchanges = s.exchanges := rfl

/-! ### bind -/

@[simp] theorem State.bind_init (x : Option XferRef) (s : State) : (s.bind x).init = true := rfl
@[simp] theorem State.bind_xfer (x : Option XferRef) (s : State) : (s.bind x).xfer = x := rfl
@[simp] theorem State.bind_phase (x : Option XferRef) (s : State) : (s.bind x).phase = s.phase := rfl
@[simp] theorem State.bind_opl (x : Option XferRef) (s : State) : (s.bind x).opl = s.opl := rfl
@[simp] theorem State.bind_txbuf (x : Option XferRef) (s : State) : (s.bind x).txbuf = s.txbuf := rfl
@[simp] theorem State.bind_rxbuf (x : Option XferRef) (s : State) : (s.bind x).rxbuf = s.rxbuf := rfl
@[simp] theorem State.bind_resp (x : Option XferRef) (s : State) : (s.bind x).resp = s.resp := rfl
@[simp] theorem State.bind_xstatus (x : Option XferRef) (s : State) : (s.bind x).xstatus = s.xstatus := rfl
@[simp] theorem State.bind_cfg (x : Option XferRef) (s : State) : (s.bind x).cfg = s.cfg := rfl
@[simp] theorem State.bind_inbox (x : Option XferRef) (s : State) : (s.bind x).inbox = s.inbox := rfl
@[simp] theorem State.bind_transfers (x : Option XferRef) (s : State) : (s.bind x).transfers = s.transfers := rfl
@[simp] theorem State.bind_exchanges (x : Option XferRef) (s : State) : (s.bind x).exchanges = s.exchanges := rfl

/-! ### issue -/

@[simp] theorem State.issue_init (k : XferKind) (s : State) : (s.issue k).init = s.init := rfl
@[simp] theorem State.issue_xfer (k : XferKind) (s : State) : (s.issue k).xfer = s.xfer := rfl
@[simp] theorem State.issue_phase (k : XferKind) (s : State) : (s.issue k).phase = s.phase := rfl
@[simp] theorem State.issue_opl (k : XferKind) (s : State) : (s.issue k).opl = s.opl := rfl
@[simp] theorem State.issue_txbuf (k : XferKind) (s : State) : (s.issue k).txbuf = s.txbuf := rfl
@[simp] theorem State.issue_rxbuf (k : XferKind) (s : State) : (s.issue k).rxbuf = s.rxbuf := rfl
@[simp] theorem State.issue_resp (k : XferKind) (s : State) : (s.issue k).resp = s.resp := rfl
@[simp] theorem State.issue_xstatus (k : XferKind) (s : State) : (s.issue k).xstatus = s.xstatus := rfl
@[simp] theorem State.issue_cfg (k : XferKind) (s : State) : (s.issue k).cfg = s.cfg := rfl
@[simp] theorem State.issue_inbox (k : XferKind) (s : State) : (s.issue k).inbox = s.inbox := rfl
@[simp] theorem State.issue_transfers (k : XferKind) (s : State) : (s.issue k).transfers = ⟨s.transfers.length, s.xfer, k, .pending⟩ :: s.transfers := rfl
@[simp] theorem State.issue_exchanges (k : XferKind) (s : State) : (s.issue k).exchanges = s.exchanges := rfl

/-! ### settle -/

@[simp] theorem State.settle_init (tag : Nat) (o : TransferOutcome) (s : State) : (s.settle tag o).init = s.init := rfl
@[simp] theorem State.settle_xfer (tag : Nat) (o : TransferOutcome) (s : State) : (s.settle tag o).xfer = s.xfer := rfl
@[simp] theorem State.settle_phase (tag : Nat) (o : TransferOutcome) (s : State) : (s.settle tag o).phase = s.phase := rfl
@[simp] theorem State.settle_opl (tag : Nat) (o : TransferOutcome) (s : State) : (s.settle tag o).opl = s.opl := rfl
@[simp] theorem State.settle_txbuf (tag : Nat) (o : TransferOutcome) (s : State) : (s.settle tag o).txbuf = s.txbuf := rfl
@[simp] theorem State.settle_rxbuf (tag : Nat) (o : TransferOutcome) (s : State) : (s.settle tag o).rxbuf = s.rxbuf := rfl
@[simp] theorem State.settle_resp (tag : Nat) (o : TransferOutcome) (s : State) : (s.settle tag o).resp = s.resp := rfl
@[simp] theorem State.settle_xstatus (tag : Nat) (o : TransferOutcome) (s : State) : (s.settle tag o).xstatus = s.xstatus := rfl
@[simp] theorem State.settle_cfg (tag : Nat) (o : TransferOutcome) (s : State) : (s.settle tag o).cfg = s.cfg := rfl
@[simp] theorem State.settle_inbox (tag : Nat) (o : TransferOutcome) (s : State) : (s.settle tag o).inbox = s.inbox := rfl
@[simp] theorem State.settle_transfers (tag : Nat) (o : TransferOutcome) (s : State) : (s.settle tag o).transfers = s.transfers.map fun t => if t.tag = tag then { t with outcome := o } else t := rfl
@[simp] theorem State.settle_exchanges (tag : Nat) (o : TransferOutcome) (s : State) : (s.settle tag o).exchanges = s.exchanges := rfl

/-! ### sample -/

@[simp] theorem State.sample_init (tag : Nat) (st : ResultCode) (rx : Option Frame) (s : State) : (s.sample tag st rx).init = s.init := rfl
@[simp] theorem State.sample_xfer (tag : Nat) (st : ResultCode) (rx : Option Frame) (s : State) : (s.sample tag st rx).xfer = s.xfer := rfl
@[simp] theorem State.sample_phase (tag : Nat) (st : ResultCode) (rx : Option Frame) (s : State) : (s.sample tag st rx).phase = s.phase := rfl
@[simp] theorem State.sample_opl (tag : Nat) (st : ResultCode) (rx : Option Frame) (s : State) : (s.sample tag st rx).opl = s.opl := rfl
@[simp] theorem State.sample_txbuf (tag : Nat) (st : ResultCode) (rx : Option Frame) (s : State) : (s.sample tag st rx).txbuf = s.txbuf := rfl
@[simp] theorem State.sample_rxbuf (tag : Nat) (st : ResultCode) (rx : Option Frame) (s : State) : (s.sample tag st rx).rxbuf = s.rxbuf := rfl
@[simp] theorem State.sample_resp (tag : Nat) (st : ResultCode) (rx : Option Frame) (s : State) : (s.sample tag st rx).resp = s.resp := rfl
@[simp] theorem State.sample_xstatus (tag : Nat) (st : ResultCode) (rx : Option Frame) (s : State) : (s.sample tag st rx).xstatus = some st := rfl
@[simp] theorem State.sample_cfg (tag : Nat) (st : ResultCode) (rx : Option Frame) (s : State) : (s.sample tag st rx).cfg = s.cfg := rfl
@[simp] theorem State.sample_inbox (tag : Nat) (st : ResultCode) (rx : Option Frame) (s : State) : (s.sample tag st rx).inbox = s.inbox := rfl
@[simp] theorem State.sample_transfers (tag : Nat) (st : ResultCode) (rx : Option Frame) (s : State) : (s.sample tag st rx).transfers = (s.settle tag (.answered st rx)).transfers := rfl
@[simp] theorem State.sample_exchanges (tag : Nat) (st : ResultCode) (rx : Option Frame) (s : State) : (s.sample tag st rx).exchanges = s.exchanges := rfl

/-! ### resetNow -/

@[simp] theorem State.resetNow_init (s : State) : (s.resetNow).init = false := rfl
@[simp] theorem State.resetNow_xfer (s : State) : (s.resetNow).xfer = none := rfl
@[simp] theorem State.resetNow_phase (s : State) : (s.resetNow).phase = .idle := rfl
@[simp] theorem State.resetNow_opl (s : State) : (s.resetNow).opl = none := rfl
@[simp] theorem State.resetNow_txbuf (s : State) : (s.resetNow).txbuf = none := rfl
@[simp] theorem State.resetNow_rxbuf (s : State) : (s.resetNow).rxbuf = none := rfl
@[simp] theorem State.resetNow_resp (s : State) : (s.resetNow).resp = {} := rfl
@[simp] theorem State.resetNow_xstatus (s : State) : (s.resetNow).xstatus = none := rfl
@[simp] theorem State.resetNow_cfg (s : State) : (s.resetNow).cfg = s.cfg := rfl
@[simp] theorem State.resetNow_inbox (s : State) : (s.resetNow).inbox = s.inbox := rfl
@[simp] theorem State.resetNow_transfers (s : State) : (s.resetNow).transfers = s.transfers.map Transfer.abandon := rfl
@[simp] theorem State.resetNow_exchanges (s : State) : (s.resetNow).exchanges = s.exchanges := rfl

end Sys2Proof.Machine
end

