-- ==== Sys2Proof/Laws/Ops.lean ====
section
/-! SUPPORT. One spec lemma per shared operation: everything it can do when it answers a next state. -/

namespace Sys2Proof.Machine

variable {s t : State}

theorem State.busy_eq_false : s.busy = false ↔ s.phase = .idle := by
  cases h : s.phase <;> simp [State.busy, h]

theorem State.busy_eq_true : s.busy = true ↔ s.phase ≠ .idle := by
  cases h : s.phase <;> simp [State.busy, h]

/-- The state a completion leaves (R97). -/
def State.done (r : ReqPort) (resp : Resp) (s : State) : State :=
  { s with
    phase := .idle
    opl := none
    txbuf := none
    rxbuf := none
    resp := resp
    xstatus := none
    exchanges := ⟨r, resp⟩ :: s.exchanges }

/-- A completion reads OPL and leaves `State.done` of it. -/
theorem complete_next {st : ResultCode} {out : Resp} :
    complete st out s = .next t ↔ ∃ r, s.opl = some r ∧ t = s.done r { out with status := some st } := by
  unfold complete
  cases h : s.opl with
  | none => simp
  | some r => simp [State.done, eq_comm]

theorem complete_of_latched {st : ResultCode} {out : Resp} {r : ReqPort} (h : s.opl = some r) :
    complete st out s = .next (s.done r { out with status := some st }) :=
  complete_next.mpr ⟨r, h, rfl⟩

theorem whenIdle_of_idle {p : Result} (h : s.phase = .idle) : whenIdle s p = p := by
  simp [whenIdle, State.busy, h]

theorem whenIdle_of_busy {p : Result} (h : s.busy = true) : whenIdle s p = .fault .requestOverlap := by
  simp [whenIdle, h]

theorem whenIdle_next {p : Result} : whenIdle s p = .next t ↔ s.phase = .idle ∧ p = .next t := by
  cases h : s.phase <;> simp [whenIdle, State.busy, h]

/-- Either a check failed and the operation completes, or it goes on (R101, R102). -/
theorem checked_next {sf pf : Option ResultCode} {out : Resp} {p : Result} :
    checked sf pf out s p = .next t ↔
      (∃ e, firstFailure s.cfg.guardOrder sf pf = some e ∧ complete e out s = .next t) ∨
        (firstFailure s.cfg.guardOrder sf pf = none ∧ p = .next t) := by
  unfold checked
  split <;> simp_all

/-- No failure is reported exactly when no check fails. -/
@[simp] theorem firstFailure_eq_none {o : GuardOrder} {sf pf : Option ResultCode} :
    firstFailure o sf pf = none ↔ sf = none ∧ pf = none := by
  cases sf <;> cases pf <;> simp [firstFailure]

@[simp] theorem mustBeInitialized_eq_none : mustBeInitialized s = none ↔ s.init = true := by
  simp [mustBeInitialized]

@[simp] theorem mustBeUninitialized_eq_none : mustBeUninitialized s = none ↔ s.init = false := by
  simp [mustBeUninitialized]

@[simp] theorem paramCheck_eq_none {b : Bool} : paramCheck b = none ↔ b = true := by
  cases b <;> simp [paramCheck]

/-- A write transfer is issued and waited for (R88). -/
theorem doWrite_next {f : Frame} :
    doWrite f s = .next t ↔ t = { s.issue (.write f) with txbuf := some f, phase := .waitWrite } := by
  simp [doWrite, eq_comm]

/-- A read transfer is issued and waited for (R88). -/
theorem doRead_next : doRead s = .next t ↔ t = { s.issue .read with phase := .waitRead, xstatus := none } := by
  simp [doRead, eq_comm]

/-- After a write: GET_GAS reads on Success; anything else completes with the write's status (R89, R91, R103). -/
theorem afterWrite_next {st : ResultCode} :
    afterWrite st s = .next t ↔ ∃ r, s.opl = some r ∧
      ((r.op = opGetGas ∧ st = .success ∧ doRead s = .next t) ∨
        (r.op = opGetGas ∧ st ≠ .success ∧ complete st { ppmWe := some false } s = .next t) ∨
        (r.op ≠ opGetGas ∧ complete st {} s = .next t)) := by
  unfold afterWrite
  cases h : s.opl with
  | none => simp
  | some r => by_cases h1 : r.op = opGetGas <;> by_cases h2 : st = .success <;> simp [h1, h2]

/-- After a read (R91): a failed read, a valid frame, or an invalid one. -/
theorem afterRead_next {st : ResultCode} {g : Frame} :
    afterRead st g s = .next t ↔
      (st ≠ .success ∧ complete st { ppmWe := some false } s = .next t) ∨
      (st = .success ∧ valid g = true ∧
        complete .success { ppm := some (ppmOf g), ppmWe := some true } { s with rxbuf := some g } = .next t) ∨
      (st = .success ∧ valid g = false ∧
        complete (invalidFrameResult s.cfg.policy st) { ppmWe := some false } { s with rxbuf := some g } = .next t) := by
  unfold afterRead extract
  by_cases h1 : st = .success <;> cases h2 : valid g <;> simp [h1, h2]

/-- Every code but InvalidResponse belongs to the result set under every policy (R15). -/
theorem inResultSet_of_ne {p : ResponsePolicy} {c : ResultCode} (h : c ≠ .invalidResponse) : inResultSet p c = true := by
  simp [inResultSet, h]

theorem inResultSet_iff {p : ResponsePolicy} {c : ResultCode} :
    inResultSet p c = true ↔ (c = .invalidResponse → p = .invalidResponse) := by
  by_cases h : c = .invalidResponse <;> simp [inResultSet, h]

/-- What GET_GAS reports for an invalid frame belongs to the set of its own policy (R9, R15). -/
theorem invalidFrameResult_inResultSet (p : ResponsePolicy) : inResultSet p (invalidFrameResult p .success) = true := by
  cases p <;> rfl

/-- No check reports InvalidResponse (R101), so neither does the one R102 selects. -/
theorem firstFailure_ne_invalidResponse {o : GuardOrder} {sf pf : Option ResultCode} {e : ResultCode}
    (h : firstFailure o sf pf = some e) (hs : sf ≠ some .invalidResponse) (hp : pf ≠ some .invalidResponse) :
    e ≠ .invalidResponse := by
  rintro rfl
  cases sf <;> cases pf <;> cases o <;> simp_all [firstFailure, pickFailure]

theorem mustBeInitialized_ne : mustBeInitialized s ≠ some .invalidResponse := by
  cases h : s.init <;> simp [mustBeInitialized, h]

theorem mustBeUninitialized_ne : mustBeUninitialized s ≠ some .invalidResponse := by
  cases h : s.init <;> simp [mustBeUninitialized, h]

theorem paramCheck_ne {b : Bool} : paramCheck b ≠ some .invalidResponse := by
  cases b <;> simp [paramCheck]

theorem whenInSet_of_mem {st : ResultCode} {p : Result} (h : inResultSet s.cfg.policy st = true) : whenInSet st s p = p := by
  simp [whenInSet, h]

theorem whenInSet_next {st : ResultCode} {p : Result} :
    whenInSet st s p = .next t ↔ inResultSet s.cfg.policy st = true ∧ p = .next t := by
  cases h : inResultSet s.cfg.policy st <;> simp [whenInSet, h]

/-- LINK's answer to a write that CORE is waiting for (R26). -/
theorem finishWrite_answered {f : Frame} {st : ResultCode} (hp : s.phase = .waitWrite) (ht : s.txbuf = some f)
    (hx : s.xstatus = some st) (hs : inResultSet s.cfg.policy st = true) : finishWrite f s = afterWrite st s := by
  simp [finishWrite, hp, ht, hx, whenInSet, hs]

theorem finishWrite_next {f : Frame} :
    finishWrite f s = .next t ↔ s.phase = .waitWrite ∧ s.txbuf = some f ∧
      ((s.xstatus = none ∧ t = s) ∨
        ∃ st, s.xstatus = some st ∧ inResultSet s.cfg.policy st = true ∧ afterWrite st s = .next t) := by
  unfold finishWrite
  cases hp : s.phase with
  | idle => simp
  | waitRead => simp
  | waitWrite =>
    cases ht : s.txbuf with
    | none => simp
    | some u =>
      by_cases hu : u = f
      · cases hx : s.xstatus
        · simp only [hu, ↓reduceIte, Host.Outcome.next.injEq, true_and, reduceCtorEq, false_and, exists_false, or_false]
          exact eq_comm
        · simp [hu, whenInSet_next]
      · simp [hu]

/-- LINK's answer to the read that CORE is waiting for (R26). -/
theorem finishRead_answered {g : Frame} {st : ResultCode} (hp : s.phase = .waitRead) (hx : s.xstatus = some st)
    (hs : inResultSet s.cfg.policy st = true) : finishRead g s = afterRead st g s := by
  simp [finishRead, hp, hx, whenInSet, hs]

theorem finishRead_next {g : Frame} :
    finishRead g s = .next t ↔ s.phase = .waitRead ∧
      ((s.xstatus = none ∧ t = s) ∨
        ∃ st, s.xstatus = some st ∧ inResultSet s.cfg.policy st = true ∧ afterRead st g s = .next t) := by
  unfold finishRead
  cases hp : s.phase with
  | idle => simp
  | waitWrite => simp
  | waitRead =>
    cases hx : s.xstatus
    · simp only [Host.Outcome.next.injEq, true_and, reduceCtorEq, false_and, exists_false, or_false]
      exact eq_comm
    · simp [whenInSet_next]

theorem hostReads_next {field : RespField} : hostReads field s = .next t ↔ s.resp.drives field = true ∧ t = s := by
  unfold hostReads
  by_cases h : s.resp.drives field = true
  · rw [if_pos h]
    exact ⟨fun e => ⟨h, (Host.Outcome.next.inj e).symm⟩, fun e => congrArg _ e.2.symm⟩
  · simp [h]

/-- A late answer is discarded only for a transfer a reset abandoned (R116). -/
theorem lateAnswer_next {tag : Nat} {st : ResultCode} {rx : Option Frame} :
    lateAnswer tag st rx s = .next t ↔ ∃ u, s.transfer? tag = some u ∧ u.outcome = .abandoned ∧
      u.kind.fits rx = true ∧ inResultSet s.cfg.policy st = true ∧ t = s.settle tag (.discarded st rx) := by
  unfold lateAnswer
  cases hu : s.transfer? tag with
  | none => simp
  | some u =>
    by_cases h : u.outcome = .abandoned ∧ u.kind.fits rx = true
    · simp only [h, and_self, if_true, whenInSet_next, Host.Outcome.next.injEq, Option.some.injEq, exists_eq_left', true_and]
      exact and_congr_right fun _ => eq_comm
    · simp only [if_neg h, reduceCtorEq, Option.some.injEq, exists_eq_left', false_iff]
      exact fun e => h ⟨e.1, e.2.1⟩

/-- When an answer completes a pending transfer, and which word it completes (R32). -/
theorem answerWord_eq_some {tag : Nat} {rx : Option Frame} {w : PortWord} :
    s.answerWord tag rx = some w ↔ ∃ u, s.transfer? tag = some u ∧ u.outcome = .pending ∧
      ((∃ f, u.kind = .write f ∧ rx = none ∧ w = .linkWrite f) ∨
        (∃ g, u.kind = .read ∧ rx = some g ∧ w = .linkRead g)) := by
  unfold State.answerWord
  cases s.transfer? tag with
  | none => simp
  | some u =>
    obtain ⟨n, l, k, o⟩ := u
    cases o <;> cases k <;> cases rx <;> simp only [reduceCtorEq, false_and, and_false, exists_false] <;> simp <;> exact eq_comm

end Sys2Proof.Machine
end

