-- ==== Sys2Proof/Laws/PerInstr.lean ====
section
/-! SUPPORT. Per instruction: the encoder puts the row's fixed bits of spec/opcode_table.json (family RowWord of LAWS.json). -/

namespace Sys2Proof.Laws.RowWord

/-- The "match" of the table's op-select rows; the frame rows have none. -/
def tableOp : Instr → Option (BitVec 4)
  | .init _ => some 0x0
  | .getGas _ => some 0x1
  | .calZero => some 0x2
  | .calSpan _ => some 0x3
  | .setAbc _ => some 0x4
  | .setRange _ => some 0x5
  | .send _ _ _ _ => some 0x6
  | .reserved7 => some 0x7
  | .cksum _ => some 0x8
  | .validate _ => some 0x9
  | .build _ _ _ _ => some 0xA
  | .parse _ => some 0xB
  | .reservedC => some 0xC
  | .reservedD => some 0xD
  | .reservedE => some 0xE
  | .reservedF => some 0xF
  | .frameRequest _ _ _ => none
  | .frameGetGas => none
  | .frameCalZero => none
  | .frameCalSpan _ _ => none
  | .frameSetAbc _ _ => none
  | .frameSetRange _ _ => none
  | .frameResponse _ => none

/-- A request row's word holds its op-select; an outbound frame row's word opens with 0xFF 0x01; an inbound frame is its own
word. -/
def Statement (i : Instr) : Prop :=
  match encode i with
  | .request r => tableOp i = some r.op
  | .linkWrite f => tableOp i = none ∧ f.b0 = 0xFF ∧ f.b1 = 0x01
  | .linkRead g => i = .frameResponse g

theorem init (x : Option XferRef) : Statement (.init x) := rfl
theorem getGas (present : Bool) : Statement (.getGas present) := rfl
theorem calZero : Statement .calZero := rfl
theorem calSpan (v : BitVec 16) : Statement (.calSpan v) := rfl
theorem setAbc (e : Bool) : Statement (.setAbc e) := rfl
theorem setRange (r : Byte) : Statement (.setRange r) := rfl
theorem send (k : Byte) (pp : Bool) (n : Byte) (p : Payload) : Statement (.send k pp n p) := rfl
theorem reserved7 : Statement .reserved7 := rfl
theorem cksum (f : Frame) : Statement (.cksum f) := rfl
theorem validate (f : Frame) : Statement (.validate f) := rfl
theorem build (k : Byte) (pp : Bool) (n : Byte) (p : Payload) : Statement (.build k pp n p) := rfl
theorem parse (f : Frame) : Statement (.parse f) := rfl
theorem reservedC : Statement .reservedC := rfl
theorem reservedD : Statement .reservedD := rfl
theorem reservedE : Statement .reservedE := rfl
theorem reservedF : Statement .reservedF := rfl
theorem frameRequest (k : Byte) (p : Payload) (c : Byte) : Statement (.frameRequest k p c) := ⟨rfl, rfl, rfl⟩
theorem frameGetGas : Statement .frameGetGas := ⟨rfl, rfl, rfl⟩
theorem frameCalZero : Statement .frameCalZero := ⟨rfl, rfl, rfl⟩
theorem frameCalSpan (s : BitVec 16) (c : Byte) : Statement (.frameCalSpan s c) := ⟨rfl, rfl, rfl⟩
theorem frameSetAbc (a c : Byte) : Statement (.frameSetAbc a c) := ⟨rfl, rfl, rfl⟩
theorem frameSetRange (r : BitVec 32) (c : Byte) : Statement (.frameSetRange r c) := ⟨rfl, rfl, rfl⟩
theorem frameResponse (g : Frame) : Statement (.frameResponse g) := rfl

end Sys2Proof.Laws.RowWord
end

