-- ==== Sys2Proof/Laws/Step.lean ====
section
/-! SUPPORT. What a step can do: the meanings of the requests and of the frames, and the step itself, by cases. -/

namespace Sys2Proof.Machine

variable {s t : State}

theorem step_nil (h : s.inbox = []) : step s = .next s := by
  simp [step, advance, h]

theorem step_cons {e : Event} {rest : List Event} (h : s.inbox = e :: rest) :
    step s = takeEvent e { s with inbox := rest } := by
  simp [step, advance, h]

/-- Every request decodes (R65, R66). -/
theorem runWord_request (r : ReqPort) : runWord (.request r) s = exec (decodeRequest r) s := rfl

theorem runWord_read (g : Frame) : runWord (.linkRead g) s = execFrameResponse g s := rfl

/-- Whichever row an outbound frame spells, its meaning is the completion of the write of that frame. -/
theorem exec_of_decodeWrite {f : Frame} {i : Instr} (h : decodeWrite f = .ok i) (s : State) :
    exec i s = finishWrite f s := by
  have he := encode_of_decodeWrite h
  unfold decodeWrite at h
  split_ifs at h <;> simp only [Except.ok.injEq] at h <;> subst h <;>
    exact congrArg (finishWrite · s) (PortWord.linkWrite.inj he)

theorem runWord_write {f : Frame} (h0 : f.b0 = startMarker) (h1 : f.b1 = deviceByte) :
    runWord (.linkWrite f) s = finishWrite f s := by
  obtain ⟨i, hi⟩ := decodeWrite_ok h0 h1
  simp only [runWord, decode, hi, exec_of_decodeWrite hi]

theorem decodeRequest_isRequest (r : ReqPort) : (decodeRequest r).isRequest = true := by
  unfold decodeRequest
  split <;> rfl

/-- A request that finds CORE busy is the overlap hazard (R119, R120). -/
theorem exec_request_busy {i : Instr} (hi : i.isRequest = true) (hb : s.busy = true) :
    exec i s = .fault .requestOverlap := by
  cases i <;>
    first
    | exact whenIdle_of_busy hb
    | simp [Instr.isRequest] at hi

/-- The instructions of the operations that reach the link (R41). -/
def commandInstr : Instr → Bool
  | .getGas _ => true
  | .calZero => true
  | .calSpan _ => true
  | .setAbc _ => true
  | .setRange _ => true
  | .send _ _ _ _ => true
  | _ => false

/-- They are the op-selects 0x1 to 0x6 (R65). -/
theorem reachesLink_of_commandInstr {r : ReqPort} (h : commandInstr (decodeRequest r) = true) :
    reachesLink r.op = true := by
  have : r.op.toNat < 16 := r.op.isLt
  unfold reachesLink
  rcases hr : r.op.toNat with _ | _ | _ | _ | _ | _ | _ | n <;> simp_all [decodeRequest, commandInstr]
  rcases n with _ | _ | _ | _ | _ | _ | _ | _ | _ <;> simp_all

/-- INIT is op-select 0x0 (R65). -/
theorem op_of_decodeRequest_init {r : ReqPort} {x : Option XferRef} (h : decodeRequest r = .init x) :
    r.op.toNat = 0 ∧ r.xfer = x := by
  unfold decodeRequest at h
  split at h <;> simp_all

/-- What a request can do when it answers a next state: complete at once (INIT having bound its function, if it succeeded),
never with InvalidResponse, or issue the write of a frame CORE may write, which it does only initialized. -/
theorem exec_request_next {i : Instr} (hi : i.isRequest = true) (h : exec i s = .next t) :
    s.phase = .idle ∧
      ((∃ st out, st ≠ .invalidResponse ∧ complete st out s = .next t) ∨
        (∃ x, i = .init (some x) ∧ s.init = false ∧ complete .success {} (s.bind (some x)) = .next t) ∨
        (∃ f, commandInstr i = true ∧ s.init = true ∧ couldHaveWritten f = true ∧ doWrite f s = .next t)) := by
  have known {k : Byte} {p : Payload} {n : Nat} (hk : knownCommand k = true) :
      couldHaveWritten (assemble k p n) = true := by rw [couldHaveWritten_assemble, hk]
  cases i with
  | init x =>
    obtain ⟨hp, h⟩ := whenIdle_next.mp h
    refine ⟨hp, ?_⟩
    rcases checked_next.mp h with ⟨e, he, h⟩ | ⟨hf, h⟩
    · exact .inl ⟨_, _, firstFailure_ne_invalidResponse he mustBeUninitialized_ne paramCheck_ne, h⟩
    · simp only [firstFailure_eq_none, mustBeUninitialized_eq_none, paramCheck_eq_none] at hf
      obtain ⟨x, rfl⟩ := Option.isSome_iff_exists.mp hf.2
      exact .inr (.inl ⟨x, rfl, hf.1, h⟩)
  | getGas _ | calZero | calSpan _ | setAbc _ | setRange _ =>
    obtain ⟨hp, h⟩ := whenIdle_next.mp h
    refine ⟨hp, ?_⟩
    rcases checked_next.mp h with ⟨e, he, h⟩ | ⟨hf, h⟩
    · exact .inl ⟨_, _, firstFailure_ne_invalidResponse he mustBeInitialized_ne (by first | exact paramCheck_ne | simp), h⟩
    · simp only [firstFailure_eq_none, mustBeInitialized_eq_none] at hf
      exact .inr (.inr ⟨_, rfl, hf.1, known (by decide), h⟩)
  | send k pp n p =>
    obtain ⟨hp, h⟩ := whenIdle_next.mp h
    refine ⟨hp, ?_⟩
    rcases checked_next.mp h with ⟨e, he, h⟩ | ⟨hf, h⟩
    · exact .inl ⟨_, _, firstFailure_ne_invalidResponse he mustBeInitialized_ne encoderGuard_ne, h⟩
    · simp only [firstFailure_eq_none, mustBeInitialized_eq_none, encoderGuard_eq_none] at hf
      exact .inr (.inr ⟨_, rfl, hf.1, known (knownCommand_of_accepted hf.2.1), h⟩)
  | build k pp n p =>
    obtain ⟨hp, h⟩ := whenIdle_next.mp h
    refine ⟨hp, .inl ?_⟩
    split at h
    · next e he => exact ⟨_, _, fun hi => encoderGuard_ne (hi ▸ he), h⟩
    · exact ⟨_, _, by simp, h⟩
  | cksum _ | validate _ | parse _ | reserved7 | reservedC | reservedD | reservedE | reservedF =>
    obtain ⟨hp, h⟩ := whenIdle_next.mp h
    exact ⟨hp, .inl ⟨_, _, by simp, h⟩⟩
  | frameRequest _ _ _ | frameGetGas | frameCalZero | frameCalSpan _ _ | frameSetAbc _ _ | frameSetRange _ _
  | frameResponse _ => simp [Instr.isRequest] at hi

/-! ### The step -/

/-- The newest transfer's number is found first, and settling it changes that entry alone. -/
theorem settle_newest {u : Transfer} {older : List Transfer} (hn : Numbered (u :: older)) (o : TransferOutcome) :
    ((u :: older).map fun t => if t.tag = u.tag then { t with outcome := o } else t) = { u with outcome := o } :: older := by
  have below : ∀ l : List Transfer, Numbered l → ∀ v ∈ l, v.tag < l.length := by
    intro l
    induction l with
    | nil => simp
    | cons w l ih =>
      rintro ⟨hw, hl⟩ v hv
      rcases List.mem_cons.mp hv with rfl | hv
      · simp [hw]
      · exact Nat.lt_succ_of_lt (ih hl v hv)
  rw [List.map_cons, if_pos rfl]
  congr 1
  conv_rhs => rw [← List.map_id older]
  refine List.map_congr_left fun v hv => ?_
  rw [if_neg]
  · rfl
  · have := below older hn.2 v hv
    rw [hn.1]
    omega

theorem mem_of_transfer? {tag : Nat} {u : Transfer} (h : s.transfer? tag = some u) : u ∈ s.transfers ∧ u.tag = tag := by
  have := List.find?_some h
  exact ⟨List.mem_of_find?_eq_some h, by simpa using this⟩

/-- With the input taken off, `s` is this state. -/
def State.after (rest : List Event) (s : State) : State := { s with inbox := rest }

/-- A response that drives a status of the result set (R15). -/
def Resp.inSet (policy : ResponsePolicy) (p : Resp) : Prop :=
  ∃ c, p.status = some c ∧ inResultSet policy c = true

/-- Everything a step can do from a sound state when it answers a next state. -/
inductive StepCase (s t : State) : Prop
  /-- no input -/
  | waits (hin : s.inbox = []) (ht : t = s)
  /-- a request completes at once -/
  | completes (r : ReqPort) (rest : List Event) (resp : Resp) (hin : s.inbox = .request r :: rest) (hp : s.phase = .idle)
      (hs : resp.inSet s.cfg.policy) (ht : t = ((s.after rest).latch r).done r resp)
  /-- INIT binds (R90) -/
  | binds (r : ReqPort) (rest : List Event) (l : XferRef) (hin : s.inbox = .request r :: rest) (hp : s.phase = .idle)
      (hop : r.op.toNat = 0) (hx : r.xfer = some l) (hf : s.init = false)
      (ht : t = (((s.after rest).latch r).bind (some l)).done r { status := some .success })
  /-- a request issues its write (R88) -/
  | writes (r : ReqPort) (rest : List Event) (f : Frame) (hin : s.inbox = .request r :: rest) (hp : s.phase = .idle)
      (hop : reachesLink r.op = true) (hf : s.init = true) (hw : couldHaveWritten f = true)
      (ht : t = { ((s.after rest).latch r).issue (.write f) with txbuf := some f, phase := .waitWrite })
  /-- GET_GAS's write is answered Success: the read is issued (R91) -/
  | reads (u : Transfer) (older : List Transfer) (rest : List Event) (r : ReqPort) (f : Frame)
      (hin : s.inbox = .answer u.tag .success none :: rest) (hp : s.phase = .waitWrite) (hl : s.transfers = u :: older)
      (hk : u.kind = .write f) (ho : s.opl = some r) (hop : r.op = opGetGas)
      (ht : t = { ((s.after rest).sample u.tag .success none).issue .read with phase := .waitRead, xstatus := none })
  /-- any other answer to a write completes the operation (R89) -/
  | ends (u : Transfer) (older : List Transfer) (st : ResultCode) (rest : List Event) (r : ReqPort) (f : Frame) (resp : Resp)
      (hin : s.inbox = .answer u.tag st none :: rest) (hp : s.phase = .waitWrite) (hl : s.transfers = u :: older)
      (hk : u.kind = .write f) (ho : s.opl = some r) (hop : st ≠ .success ∨ r.op ≠ opGetGas)
      (hst : inResultSet s.cfg.policy st = true) (hs : resp.inSet s.cfg.policy)
      (ht : t = ((s.after rest).sample u.tag st none).done r resp)
  /-- the answer to a read completes GET_GAS (R91) -/
  | extracts (u : Transfer) (older : List Transfer) (st : ResultCode) (g : Frame) (rest : List Event) (r : ReqPort)
      (resp : Resp) (hin : s.inbox = .answer u.tag st (some g) :: rest) (hp : s.phase = .waitRead)
      (hl : s.transfers = u :: older) (hk : u.kind = .read) (ho : s.opl = some r)
      (hst : inResultSet s.cfg.policy st = true) (hs : resp.inSet s.cfg.policy)
      (ht : t = ((s.after rest).sample u.tag st (some g)).done r resp)
  /-- a late answer is discarded (R116) -/
  | discards (u : Transfer) (st : ResultCode) (rx : Option Frame) (rest : List Event)
      (hin : s.inbox = .answer u.tag st rx :: rest) (hm : u ∈ s.transfers) (ho : u.outcome = .abandoned)
      (hfind : s.transfer? u.tag = some u) (hst : inResultSet s.cfg.policy st = true)
      (ht : t = (s.after rest).settle u.tag (.discarded st rx))
  /-- HOST reads a field that holds a value -/
  | hostReads (field : RespField) (rest : List Event) (hin : s.inbox = .hostRead field :: rest)
      (hd : s.resp.drives field = true) (ht : t = s.after rest)
  /-- reset (R115) -/
  | resets (rest : List Event) (hin : s.inbox = .reset :: rest) (ht : t = (s.after rest).resetNow)

/-- In a sound state a pending transfer is the newest, its kind fits the phase, and an outbound frame is TXBUF's. -/
theorem pending_is_newest (hi : Inv s) {u : Transfer} (hm : u ∈ s.transfers) (hu : u.outcome = .pending) :
    ∃ older, s.transfers = u :: older ∧
      ((s.phase = .waitWrite ∧ ∃ f, s.txbuf = some f ∧ u.kind = .write f) ∨ (s.phase = .waitRead ∧ u.kind = .read)) := by
  have h := hi.inFlight
  unfold InFlight at h
  cases hp : s.phase with
  | idle => rw [hp] at h; exact absurd hu (h u hm)
  | waitWrite =>
    rw [hp] at h
    obtain ⟨v, older, hl, -, -, hf, ho⟩ := h
    rw [hl] at hm
    rcases List.mem_cons.mp hm with rfl | hm
    · exact ⟨older, hl, .inl ⟨rfl, hf⟩⟩
    · exact absurd hu (ho u hm)
  | waitRead =>
    rw [hp] at h
    obtain ⟨v, older, hl, -, -, hk, ho⟩ := h
    rw [hl] at hm
    rcases List.mem_cons.mp hm with rfl | hm
    · exact ⟨older, hl, .inr ⟨rfl, hk⟩⟩
    · exact absurd hu (ho u hm)

/-- The inversion of a step from a sound state. -/
theorem step_next (hi : Inv s) (h : step s = .next t) : StepCase s t := by
  cases hin : s.inbox with
  | nil =>
    rw [step_nil hin] at h
    exact .waits hin (Host.Outcome.next.inj h).symm
  | cons e rest =>
    rw [step_cons hin] at h
    cases e with
    | request r =>
      rw [takeEvent, runWord_request] at h
      obtain ⟨hp, h⟩ := exec_request_next (decodeRequest_isRequest r) h
      rcases h with ⟨st, out, hst, h⟩ | ⟨l, hd, hf, h⟩ | ⟨f, hc, hf, hw, h⟩
      · obtain ⟨r', hr, rfl⟩ := complete_next.mp h
        obtain rfl : r = r' := Option.some.inj hr
        exact .completes r rest _ hin hp ⟨_, rfl, inResultSet_of_ne hst⟩ rfl
      · obtain ⟨r', hr, rfl⟩ := complete_next.mp h
        obtain rfl : r = r' := Option.some.inj hr
        obtain ⟨hop, hx⟩ := op_of_decodeRequest_init hd
        exact .binds r rest l hin hp hop hx hf rfl
      · exact .writes r rest f hin hp (reachesLink_of_commandInstr hc) hf hw (doWrite_next.mp h)
    | answer tag st rx =>
      rw [takeEvent] at h
      split at h
      · next w hw =>
        obtain ⟨u, hu, hpend, hk⟩ := answerWord_eq_some.mp hw
        obtain ⟨hm, rfl⟩ := mem_of_transfer? hu
        obtain ⟨older, hl, hph⟩ := pending_is_newest hi hm hpend
        rcases hk with ⟨f, hkind, rfl, rfl⟩ | ⟨g, hkind, rfl, rfl⟩
        · have hprop := (hi.proper u hm).2 f hkind
          simp only [couldHaveWritten, Bool.and_eq_true, beq_iff_eq] at hprop
          rw [runWord_write hprop.1.1.1 hprop.1.1.2] at h
          obtain ⟨hp, -, h⟩ := finishWrite_next.mp h
          rcases h with ⟨hx, -⟩ | ⟨st', hx, hset, h⟩
          · simp at hx
          · obtain rfl : st = st' := Option.some.inj hx
            obtain ⟨r, ho, h⟩ := afterWrite_next.mp h
            rcases h with ⟨hop, rfl, h⟩ | ⟨-, hst, h⟩ | ⟨hop, h⟩
            · exact .reads u older rest r f hin hp hl hkind ho hop (doRead_next.mp h)
            · obtain ⟨r', hr, rfl⟩ := complete_next.mp h
              exact .ends u older st rest r' f _ hin hp hl hkind hr (.inl hst) hset ⟨_, rfl, hset⟩ rfl
            · obtain ⟨r', hr, rfl⟩ := complete_next.mp h
              obtain rfl : r = r' := Option.some.inj (ho.symm.trans hr)
              exact .ends u older st rest r f _ hin hp hl hkind hr (.inr hop) hset ⟨_, rfl, hset⟩ rfl
        · rw [runWord_read] at h
          obtain ⟨hp, h⟩ := finishRead_next.mp h
          rcases h with ⟨hx, -⟩ | ⟨st', hx, hset, h⟩
          · simp at hx
          · obtain rfl : st = st' := Option.some.inj hx
            rcases afterRead_next.mp h with ⟨-, h⟩ | ⟨-, -, h⟩ | ⟨rfl, -, h⟩ <;> obtain ⟨r, hr, rfl⟩ := complete_next.mp h
            · exact .extracts u older st g rest r _ hin hp hl hkind hr hset ⟨_, rfl, hset⟩ rfl
            · exact .extracts u older st g rest r _ hin hp hl hkind hr hset ⟨_, rfl, rfl⟩ rfl
            · exact .extracts u older _ g rest r _ hin hp hl hkind hr hset ⟨_, rfl, invalidFrameResult_inResultSet _⟩ rfl
      · obtain ⟨u, hu, ho, -, hset, rfl⟩ := lateAnswer_next.mp h
        obtain ⟨hm, rfl⟩ := mem_of_transfer? hu
        exact .discards u st rx rest hin hm ho hu hset rfl
    | hostRead field =>
      obtain ⟨hd, rfl⟩ := hostReads_next.mp h
      exact .hostReads field rest hin hd rfl
    | reset => exact .resets rest hin (Host.Outcome.next.inj h).symm

end Sys2Proof.Machine
end

