-- ==== Sys2Proof/Tests/Slice0.lean ====
section
/-! SUPPORT. The model's own tests. Expected results come from the spec: the encodings of 30_encoding.md and
opcode_table.json, the vectors of 95_test_vectors.md (named in each comment). Then one witness per statement with
hypotheses, for each of its clauses. -/

namespace Sys2Proof.Tests

open Sys2Proof Sys2Proof.Machine Sys2Proof.Claims

/-! ### Small states -/

/-- The parameters of the spec's vectors: normative, STATE_FIRST, and `ABC_ON = 0xA0` where a vector names it (G1). -/
def vectorCfg : Config := { abcOn := 0xA0, policy := .permissive, acceptRange := false, guardOrder := .stateFirst }

/-- An idle machine; `L` is binding 7. -/
def idle (init : Bool) (inbox : List Event) : State :=
  { State.reset with
    init := init
    xfer := if init then some ⟨7⟩ else none
    cfg := vectorCfg
    inbox := inbox }

/-- An idle machine that has just latched a request. -/
def accepted (init : Bool) : State := { idle init [] with opl := some { op := 0x0 } }

/-- A machine waiting for the answer to the write of `f`, the transfer numbered 0, of the operation with op-select `op`. -/
def writingOf (op : BitVec 4) (f : Frame) (inbox : List Event) : State :=
  { idle true inbox with
    phase := .waitWrite
    opl := some { op := op }
    txbuf := some f
    transfers := [⟨0, some ⟨7⟩, .write f, .pending⟩] }

/-- GET_GAS waiting for the answer to its read, the transfer numbered 1. -/
def readingGas (inbox : List Event) : State :=
  { idle true inbox with
    phase := .waitRead
    opl := some { op := 0x1, present := true }
    txbuf := some gasFrame
    transfers := [⟨1, some ⟨7⟩, .read, .pending⟩, ⟨0, some ⟨7⟩, .write gasFrame, .answered .success none⟩] }

/-- The state a result holds, if it is a next state. -/
def nextOf : Result → Option State
  | .next s => some s
  | .fault _ => none
  | .refused _ => none

/-- The response a result holds. -/
def respOf (r : Result) : Option Resp := (nextOf r).map (·.resp)

/-- The frame a result's newest transfer writes, and PHASE. -/
def sent (r : Result) : Option (Phase × Option XferKind) :=
  (nextOf r).map fun s => (s.phase, s.transfers.head?.map (·.kind))

/-- E4's response frame: 1200 ppm. -/
def gas1200 : Frame := ⟨0xFF, 0x01, 0x04, 0xB0, 0x00, 0x00, 0x00, 0x00, 0x4B⟩

/-! ### Decoding: each row's word written out from R60, R65 and the table's encoding -/

theorem test_decode_init : decode (.request { op := 0b0000, xfer := some ⟨7⟩ }) = .ok (.init (some ⟨7⟩)) := by decide
theorem test_decode_getGas : decode (.request { op := 0b0001, present := true }) = .ok (.getGas true) := by decide
theorem test_decode_calZero : decode (.request { op := 0b0010 }) = .ok .calZero := by decide
theorem test_decode_calSpan : decode (.request { op := 0b0011, span := 0x07D0 }) = .ok (.calSpan 2000) := by decide
theorem test_decode_setAbc : decode (.request { op := 0b0100, abc := true }) = .ok (.setAbc true) := by decide
theorem test_decode_setRange : decode (.request { op := 0b0101, range := 0x01 }) = .ok (.setRange 1) := by decide
theorem test_decode_send :
    decode (.request { op := 0b0110, code := 0x79, present := true, size := 1, payload := 0x0011223344 }) =
      .ok (.send 0x79 true 1 ⟨0x00, 0x11, 0x22, 0x33, 0x44⟩) := by decide
theorem test_decode_reserved7 : decode (.request { op := 0b0111 }) = .ok .reserved7 := by decide
theorem test_decode_cksum :
    decode (.request { op := 0b1000, frame := 0xFF018807D000000000 }) =
      .ok (.cksum ⟨0xFF, 0x01, 0x88, 0x07, 0xD0, 0x00, 0x00, 0x00, 0x00⟩) := by decide
theorem test_decode_validate : decode (.request { op := 0b1001, frame := 0xFF0104B0000000004B }) =
    .ok (.validate gas1200) := by decide
theorem test_decode_build :
    decode (.request { op := 0b1010, code := 0x88, present := true, size := 2, payload := 0x07D0000000 }) =
      .ok (.build 0x88 true 2 ⟨0x07, 0xD0, 0x00, 0x00, 0x00⟩) := by decide
theorem test_decode_parse : decode (.request { op := 0b1011, frame := 0xFF0104B0000000004B }) = .ok (.parse gas1200) := by
  decide
theorem test_decode_reservedC : decode (.request { op := 0b1100 }) = .ok .reservedC := by decide
theorem test_decode_reservedD : decode (.request { op := 0b1101 }) = .ok .reservedD := by decide
theorem test_decode_reservedE : decode (.request { op := 0b1110 }) = .ok .reservedE := by decide
theorem test_decode_reservedF : decode (.request { op := 0b1111 }) = .ok .reservedF := by decide
theorem test_decode_frameRequest :
    decodeTableWord 72 0b111111110000000110000110000100010010001000110011010001000101010101111010 =
      some (.frameRequest 0x86 ⟨0x11, 0x22, 0x33, 0x44, 0x55⟩ 0x7A) := by decide
theorem test_decode_frameGetGas :
    decodeTableWord 72 0b111111110000000110000110000000000000000000000000000000000000000001111001 =
      some .frameGetGas := by decide
theorem test_decode_frameCalZero :
    decodeTableWord 72 0b111111110000000110000111000000000000000000000000000000000000000001111000 =
      some .frameCalZero := by decide
theorem test_decode_frameCalSpan :
    decodeTableWord 72 0b111111110000000110001000000001111101000000000000000000000000000010100000 =
      some (.frameCalSpan 2000 0xA0) := by decide
theorem test_decode_frameSetAbc :
    decodeTableWord 72 0b111111110000000101111001101000000000000000000000000000000000000011100110 =
      some (.frameSetAbc 0xA0 0xE6) := by decide
theorem test_decode_frameSetRange :
    decodeTableWord 72 0b111111110000000110011001000000000000000000000000000100111000100011001011 =
      some (.frameSetRange 5000 0xCB) := by decide
theorem test_decode_frameResponse :
    decodeTableWord 72 0b111111111000011000000010010110000000000000000000000000000000000000100000 =
      some (.frameResponse ⟨0xFF, 0x86, 0x02, 0x58, 0x00, 0x00, 0x00, 0x00, 0x20⟩) := by decide

/-- An outbound frame with another byte 0 or 1 is rejected by name (R57). -/
theorem test_decode_rejects :
    decode (.linkWrite ⟨0xFE, 0x01, 0x86, 0, 0, 0, 0, 0, 0x79⟩) = .error .badStartMarker ∧
    decode (.linkWrite ⟨0xFF, 0x02, 0x86, 0, 0, 0, 0, 0, 0x78⟩) = .error .badDeviceByte := by decide

/-! ### WellFormed: an ill-formed term for each check -/

theorem test_illFormed_requestChecksum : (Instr.frameRequest 0x86 ⟨1, 0, 0, 0, 0⟩ 0x79).wellFormed = false := by decide
theorem test_illFormed_requestCode : (Instr.frameRequest 0x42 ⟨0, 0, 0, 0, 0⟩ 0xBD).wellFormed = false := by decide
theorem test_illFormed_narrowerRow : (Instr.frameRequest 0x86 ⟨0, 0, 0, 0, 0⟩ 0x79).wellFormed = false := by decide
theorem test_illFormed_span : (Instr.frameCalSpan 2000 0xA1).wellFormed = false := by decide
theorem test_illFormed_abc : (Instr.frameSetAbc 0xA0 0xE7).wellFormed = false := by decide
theorem test_illFormed_range : (Instr.frameSetRange 5000 0xCA).wellFormed = false := by decide
theorem test_illFormed_response : (Instr.frameResponse ⟨0, 1, 4, 0xB0, 0, 0, 0, 0, 0x4B⟩).wellFormed = false := by decide

/-! ### Vectors of 95_test_vectors.md -/

/-- L2.1: offsets 0 and 8 do not count; the sum wraps. -/
theorem test_cksum_vectors :
    cksum ⟨0xAA, 0xFF, 0xFF, 0xFF, 0xFF, 0xFF, 0xFF, 0xFF, 0x55⟩ = 0x07 ∧
    cksum ⟨0xAA, 0x01, 0xFF, 0, 0, 0, 0, 0, 0x55⟩ = 0x00 ∧
    cksum ⟨0xAA, 0x80, 0, 0, 0, 0, 0, 0, 0x55⟩ = 0x80 := by decide
/-- L2.3. -/
theorem test_guard_vectors :
    encoderGuard false 0x99 true 5 = some .badParameter ∧ encoderGuard true 0x99 true 5 = none ∧
    encoderGuard false 0x86 true 0 = some .badParameter ∧ encoderGuard false 0x86 false 1 = some .badParameter ∧
    encoderGuard false 0x86 true 6 = some .badParameter ∧ encoderGuard false 0x79 true 1 = none := by decide
/-- L2.6, second and fourth rows. -/
theorem test_init_absent : respOf (exec (.init none) (accepted false)) = some { status := some .badParameter } := by decide
theorem test_init_twice :
    (nextOf (exec (.init (some ⟨8⟩)) (accepted true))).map (fun s => (s.resp.status, s.xfer)) =
      some (some .alreadyInitialized, some ⟨7⟩) := by decide
/-- L2.7: uninitialized and no output location, both orders. -/
theorem test_getGas_bothChecks :
    respOf (exec (.getGas false) (accepted false)) = some { status := some .notInitialized, ppmWe := some false } ∧
    respOf (exec (.getGas false) { accepted false with cfg := { vectorCfg with guardOrder := .paramFirst } }) =
      some { status := some .badParameter, ppmWe := some false } := by decide
theorem test_getGas_writes : sent (exec (.getGas true) (accepted true)) = some (.waitWrite, some (.write gasFrame)) := by
  decide
/-- L2.8. -/
theorem test_calZero_writes : sent (exec .calZero (accepted true)) =
    some (.waitWrite, some (.write ⟨0xFF, 0x01, 0x87, 0, 0, 0, 0, 0, 0x78⟩)) := by decide
theorem test_calSpan_5000 : sent (exec (.calSpan 5000) (accepted true)) =
    some (.waitWrite, some (.write ⟨0xFF, 0x01, 0x88, 0x13, 0x88, 0, 0, 0, 0xDC⟩)) := by decide
theorem test_calSpan_65535 : sent (exec (.calSpan 65535) (accepted true)) =
    some (.waitWrite, some (.write ⟨0xFF, 0x01, 0x88, 0xFF, 0xFF, 0, 0, 0, 0x79⟩)) := by decide
theorem test_setAbc_on : sent (exec (.setAbc true) (accepted true)) =
    some (.waitWrite, some (.write ⟨0xFF, 0x01, 0x79, 0xA0, 0, 0, 0, 0, 0xE6⟩)) := by decide
theorem test_setAbc_off : sent (exec (.setAbc false) (accepted true)) =
    some (.waitWrite, some (.write ⟨0xFF, 0x01, 0x79, 0, 0, 0, 0, 0, 0x86⟩)) := by decide
theorem test_setRange_2 : sent (exec (.setRange 2) (accepted true)) =
    some (.waitWrite, some (.write ⟨0xFF, 0x01, 0x99, 0, 0, 0, 0x27, 0x10, 0x2F⟩)) := by decide
theorem test_setRange_3 : respOf (exec (.setRange 3) (accepted true)) = some { status := some .badParameter } := by decide
/-- L2.9, and P4 step 5: bytes beyond the size are dropped. -/
theorem test_send_dropsBytes : sent (exec (.send 0x79 true 1 ⟨0x00, 0x11, 0x22, 0x33, 0x44⟩) (accepted true)) =
    some (.waitWrite, some (.write ⟨0xFF, 0x01, 0x79, 0, 0, 0, 0, 0, 0x86⟩)) := by decide
theorem test_send_range : respOf (exec (.send 0x99 true 5 ⟨0, 0, 0, 0x27, 0x10⟩) (accepted true)) =
    some { status := some .badParameter } := by decide
/-- L2.10. -/
theorem test_reserved : respOf (exec .reserved7 (accepted true)) = some { status := some .badParameter } ∧
    respOf (exec .reservedF (accepted false)) = some { status := some .badParameter } := by decide
/-- P3 step 3. -/
theorem test_exec_cksum : respOf (exec (.cksum ⟨0xFF, 0x01, 0x88, 0x07, 0xD0, 0, 0, 0, 0⟩) (accepted false)) =
    some { status := some .success, cksum := some 0xA0 } := by decide
/-- L2.2. -/
theorem test_exec_validate :
    respOf (exec (.validate ⟨0xFF, 0x01, 0xB0, 0x04, 0, 0, 0, 0, 0x4B⟩) (accepted false)) =
      some { status := some .success, valid := some true } ∧
    respOf (exec (.validate ⟨0, 0, 0, 0, 0, 0, 0, 0, 0⟩) (accepted false)) =
      some { status := some .success, valid := some false } := by decide
/-- L2.4. -/
theorem test_exec_build : respOf (exec (.build 0x86 true 2 ⟨0x11, 0x22, 0x33, 0x44, 0x55⟩) (accepted false)) =
    some { status := some .success, frame := some ⟨0xFF, 0x01, 0x86, 0x11, 0x22, 0, 0, 0, 0x46⟩ } := by decide
/-- L2.5. -/
theorem test_exec_parse : respOf (exec (.parse ⟨0xFF, 0x86, 0x02, 0x58, 0, 0, 0, 0, 0x21⟩) (accepted false)) =
    some { status := some .success, ppm := some 600, valid := some false } := by decide
/-- L2.7: a failed write suppresses the read; a Success goes on to it. -/
theorem test_frame_getGas :
    respOf (step (writingOf 0x1 gasFrame [.answer 0 .ioError none])) =
      some { status := some .ioError, ppmWe := some false } ∧
    sent (step (writingOf 0x1 gasFrame [.answer 0 .success none])) = some (.waitRead, some .read) := by decide
/-- R89: a SEND of the same frame completes with LINK's status. -/
theorem test_frame_send : respOf (step (writingOf 0x6 gasFrame [.answer 0 .notInitialized none])) =
    some { status := some .notInitialized } := by decide
/-- L2.7: a good reply; a bad checksum under each policy. -/
theorem test_frame_response_good : respOf (step (readingGas [.answer 1 .success (some gas1200)])) =
    some { status := some .success, ppm := some 1200, ppmWe := some true } := by decide
theorem test_frame_response_bad :
    let bad : List Event := [.answer 1 .success (some { gas1200 with b8 := 0x4C })]
    respOf (step (readingGas bad)) = some { status := some .success, ppmWe := some false } ∧
    respOf (step { readingGas bad with cfg := { vectorCfg with policy := .generalError } }) =
      some { status := some .generalError, ppmWe := some false } ∧
    respOf (step { readingGas bad with cfg := { vectorCfg with policy := .invalidResponse } }) =
      some { status := some .invalidResponse, ppmWe := some false } := by decide
/-- R118: an answer to no transfer, and a second answer. -/
theorem test_linkContract :
    step (idle true [.answer 0 .success none]) = .refused .linkContract ∧
    step { writingOf 0x2 calZeroFrame [.answer 0 .success none] with
      phase := .idle, transfers := [⟨0, some ⟨7⟩, .write calZeroFrame, .answered .success none⟩] } =
        .refused .linkContract := ⟨rfl, rfl⟩

/-- R15, R32: InvalidResponse is a status of LINK only under INVALID_RESPONSE. -/
theorem test_linkStatus_outsideTheSet :
    step (writingOf 0x2 calZeroFrame [.answer 0 .invalidResponse none]) = .refused .linkContract ∧
    respOf (step { writingOf 0x2 calZeroFrame [.answer 0 .invalidResponse none] with
      cfg := { vectorCfg with policy := .invalidResponse } }) = some { status := some .invalidResponse } := ⟨rfl, by decide⟩
/-- R126: the run of P1's first two steps has ended though a reset is still to come, so INIT is 1 in its observation. -/
theorem test_observeRun :
    (observeRun 9 (idle false [.request { op := 0x0, xfer := some ⟨7⟩ }, .request { op := 0x1, present := true },
      .answer 0 .success none, .answer 1 .success (some gas1200), .reset])).map
        (fun o => (o.exchanges.map (·.resp.ppm), o.transfers.map (·.kind), o.init, o.xfer)) =
      some ([none, some 1200], [.write gasFrame, .read], true, some ⟨7⟩) ∧
    observeRun 9 (writingOf 0x2 calZeroFrame []) = none := by decide

/-! ### Placing a table word: the next step runs it, from reset -/

theorem test_withFetchWord_request :
    (nextOf (step (State.reset.withFetchWord 8 0x8))).map (·.resp) =
      some { status := some .success, cksum := some 0 } := by decide
theorem test_withFetchWord_frame :
    sent (step (State.reset.withFetchWord 72 0xFF0186000000000079)) = some (.waitRead, some .read) := by decide
theorem test_withFetchWord_response :
    (nextOf (step (State.reset.withFetchWord 72 0xFF860258000000002F))).map (·.phase) = some .idle := by decide

/-! ### Sound states for the witnesses -/

/-- An idle machine, whatever response an earlier operation left. -/
theorem inv_idleAfter (b : Bool) (inbox : List Event) (p : Resp) : Inv { idle b inbox with resp := p } where
  lifecycle := by cases b <;> rfl
  idleClear := fun _ => ⟨rfl, rfl⟩
  scratchClear := ⟨rfl, rfl⟩
  inProgress := fun h => absurd rfl h
  readIsGetGas := fun h => by cases h
  inFlight := fun t ht => by cases ht
  numbered := trivial
  proper := fun t ht => by cases ht

theorem inv_idle (b : Bool) (inbox : List Event) : Inv (idle b inbox) := inv_idleAfter b inbox {}

theorem inv_writingOf {op : BitVec 4} {f : Frame} (inbox : List Event) (ho : reachesLink op = true)
    (hf : couldHaveWritten f = true) : Inv (writingOf op f inbox) where
  lifecycle := rfl
  idleClear := fun h => by cases h
  scratchClear := ⟨rfl, rfl⟩
  inProgress := fun _ => ⟨rfl, rfl, rfl, _, rfl, ho⟩
  readIsGetGas := fun h => by cases h
  inFlight := ⟨_, _, rfl, rfl, rfl, ⟨f, rfl, rfl⟩, fun u hu => by cases hu⟩
  numbered := ⟨rfl, trivial⟩
  proper := fun t ht => by
    obtain rfl := List.mem_singleton.mp ht
    exact ⟨rfl, fun g hg => by cases hg; exact hf⟩

theorem inv_readingGas (inbox : List Event) : Inv (readingGas inbox) where
  lifecycle := rfl
  idleClear := fun h => by cases h
  scratchClear := ⟨rfl, rfl⟩
  inProgress := fun _ => ⟨rfl, rfl, rfl, _, rfl, rfl⟩
  readIsGetGas := fun _ => ⟨_, rfl, rfl⟩
  inFlight := ⟨_, _, rfl, rfl, rfl, rfl, fun u hu => by obtain rfl := List.mem_singleton.mp hu; simp⟩
  numbered := ⟨rfl, rfl, trivial⟩
  proper := fun t ht => by
    rcases List.mem_cons.mp ht with rfl | ht
    · exact ⟨rfl, fun g hg => by cases hg⟩
    · obtain rfl := List.mem_singleton.mp ht
      exact ⟨rfl, fun g hg => by cases hg; rfl⟩

/-! ### Witnesses: the hypotheses of each statement are met -/

theorem witness_DecodeOfEncodeIsTheInstruction :
    (Instr.frameRequest 0x86 ⟨0x11, 0x22, 0x33, 0x44, 0x55⟩ 0x7A).wellFormed = true ∧
    (Instr.frameCalSpan 65535 0x79).wellFormed = true ∧ (Instr.frameSetAbc 0xA0 0xE6).wellFormed = true ∧
    (Instr.frameSetRange 10000 0x2F).wellFormed = true ∧ (Instr.frameResponse gas1200).wellFormed = true ∧
    (Instr.send 0x12 true 255 ⟨1, 2, 3, 4, 5⟩).wellFormed = true := by decide

theorem witness_FramesCoreCanWriteDecodeWellFormed :
    gasFrame.b0.toNat = 0xFF ∧ gasFrame.b1.toNat = 0x01 ∧ gasFrame.b2.toNat ∈ [0x86, 0x87, 0x88, 0x79, 0x99] ∧
      sum8 gasFrame % 256 = 0 := by decide

/-- For each op-select, two requests that agree on its format and differ elsewhere. -/
theorem witness_RequestReadsOnlyTheFieldsOfItsFormat :
    ∀ op : BitVec 4,
      let a : ReqPort :=
        { op := op, xfer := some ⟨7⟩, present := true, code := 0x86, size := 5, payload := 9, span := 3, abc := true
          range := 2, frame := 1 }
      let b : ReqPort := match op.toNat with
        | 0 => { op := op, xfer := some ⟨7⟩ }
        | 1 => { op := op, present := true }
        | 3 => { op := op, span := 3 }
        | 4 => { op := op, abc := true }
        | 5 => { op := op, range := 2 }
        | 6 => { op := op, code := 0x86, present := true, size := 5, payload := 9 }
        | 10 => { op := op, code := 0x86, present := true, size := 5, payload := 9 }
        | _ => { op := op, frame := 1 }
      a ≠ b ∧ a.op = b.op ∧ (op.toNat = 0 → a.xfer = b.xfer) ∧ (op.toNat = 1 → a.present = b.present) ∧
        (op.toNat = 3 → a.span = b.span) ∧ (op.toNat = 4 → a.abc = b.abc) ∧ (op.toNat = 5 → a.range = b.range) ∧
        (op.toNat ∈ [6, 10] → a.code = b.code ∧ a.present = b.present ∧ a.size = b.size ∧ a.payload = b.payload) ∧
        (op.toNat ∈ [8, 9, 11] → a.frame = b.frame) := by decide

theorem witness_OpSelectMapNamesTheOperations :
    (List.range 16).all fun k => ({ op := BitVec.ofNat 4 k } : ReqPort).op.toNat == k := by decide

theorem witness_BuiltFramesAreValid :
    encoderGuard false 0x86 false 0 = none ∧ encoderGuard true 0x99 true 5 = none := by decide

/-- At offsets 0, 1 and 8. -/
theorem witness_SingleByteCorruptionIsDetected :
    valid gas1200 = true ∧
    (gas1200.get 0 ≠ ({ gas1200 with b0 := 0xFE } : Frame).get 0 ∧
      ∀ j, j ≠ 0 → gas1200.get j = ({ gas1200 with b0 := 0xFE } : Frame).get j) ∧
    (gas1200.get 1 ≠ ({ gas1200 with b1 := 0x81 } : Frame).get 1 ∧
      ∀ j, j ≠ 1 → gas1200.get j = ({ gas1200 with b1 := 0x81 } : Frame).get j) ∧
    (gas1200.get 8 ≠ ({ gas1200 with b8 := 0x4C } : Frame).get 8 ∧
      ∀ j, j ≠ 8 → gas1200.get j = ({ gas1200 with b8 := 0x4C } : Frame).get j) := by decide

/-- R81's swap of offsets 2 and 3. -/
theorem witness_SumPreservingChangesGoUndetected :
    let g : Frame := { gas1200 with b2 := 0xB0, b3 := 0x04 }
    gas1200.b0 = g.b0 ∧ gas1200.b8 = g.b8 ∧ sum7 gas1200 % 256 = sum7 g % 256 ∧ valid gas1200 = true ∧
      Equiv.swap (2 : Fin 9) 3 0 = 0 ∧ Equiv.swap (2 : Fin 9) 3 8 = 8 ∧
      ∀ i, g.get i = gas1200.get (Equiv.swap (2 : Fin 9) 3 i) := by decide

theorem witness_AssembledFrameFollowsTheTemplate : (0 : Nat) ≤ 5 ∧ (5 : Nat) ≤ 5 := by decide

/-- The premises of the statements on the request operations (InitBindsOnceAndOnlyAPresentFunction to
ReservedSelectsCompleteWithBadParameter), initialized and not. -/
theorem witness_acceptedRequests (b : Bool) : (accepted b).phase = .idle ∧ (accepted b).opl = some { op := 0x0 } ∧
    (accepted b).init = b := ⟨rfl, rfl, rfl⟩

/-- `InitBindsOnceAndOnlyAPresentFunction`. -/
theorem witness_InitBindsOnceAndOnlyAPresentFunction :
    (accepted false).phase = .idle ∧ (accepted false).opl = some { op := 0x0 } ∧ (accepted true).init = true := by decide
theorem witness_GetGasIssuesItsFrameOrFailsACheck :
    (accepted true).phase = .idle ∧ (accepted true).opl = some { op := 0x0 } ∧ (accepted true).init = true := by decide
theorem witness_CalibrationAndAbcIssueTheirFrames :
    (accepted true).phase = .idle ∧ (accepted true).opl = some { op := 0x0 } ∧ (accepted true).init = true := by decide
theorem witness_SetRangeIssuesOneOfThreeFrames :
    (accepted true).phase = .idle ∧ (accepted true).opl = some { op := 0x0 } ∧ (rangeFrame 0).isSome = true ∧
      (rangeFrame 2).isSome = true ∧ rangeFrame 3 = none ∧ rangeFrame 255 = none := by decide
theorem witness_SendIssuesTheFrameTheGuardPasses :
    (accepted true).phase = .idle ∧ (accepted true).opl = some { op := 0x0 } ∧ sendable false 0x86 false 0 = true ∧
      sendable false 0x88 true 5 = true ∧ sendable false 0x86 true 6 = false ∧ sendable false 0x99 true 5 = false := by decide
theorem witness_CksumDrivesTheChecksum : (accepted false).phase = .idle ∧ (accepted false).opl = some { op := 0x0 } := by
  decide
theorem witness_ValidateDrivesTheVerdict : (accepted false).phase = .idle ∧ (accepted false).opl = some { op := 0x0 } ∧
    intact gas1200 = true ∧ intact { gas1200 with b0 := 0 } = false := by decide
theorem witness_BuildDrivesTheFrameTheGuardPasses :
    (accepted false).phase = .idle ∧ (accepted false).opl = some { op := 0x0 } ∧ sendable false 0x86 true 5 = true ∧
      sendable false 0x86 true 0 = false := by decide
theorem witness_ParseDrivesConcentrationAndVerdict :
    (accepted false).phase = .idle ∧ (accepted false).opl = some { op := 0x0 } := by decide
theorem witness_ReservedSelectsCompleteWithBadParameter :
    (accepted false).phase = .idle ∧ (accepted false).opl = some { op := 0x0 } := by decide

/-- One request for each clause, INIT in its two lifecycle states. -/
theorem witness_RequestsWithoutATransferCompleteAtOnce :
    (∀ i : Bool, ∀ r : ReqPort, (idle i [.request r]).phase = .idle ∧ (idle i [.request r]).inbox = .request r :: [] ∧
      (idle i [.request r]).init = i) ∧
    ([0x0, 0x7, 0xC, 0xF, 0x8, 0x9, 0xA, 0xB] : List (BitVec 4)).map (·.toNat) = [0, 7, 12, 15, 8, 9, 10, 11] :=
  ⟨fun _ _ => ⟨rfl, rfl, rfl⟩, by decide⟩

theorem witness_RequestWhileBusyFaults :
    (writingOf 0x2 calZeroFrame [.request { op := 0x8 }]).phase ≠ .idle ∧
    (readingGas [.request { op := 0x7 }]).phase ≠ .idle ∧
    (readingGas [.request { op := 0x7 }]).inbox = .request { op := 0x7 } :: [] := by decide

/-- The answered states of each of the six write frames, for a GET_GAS and for another operation. -/
theorem witness_AnsweredWriteTakesTheOperationOn (f : Frame) (op : BitVec 4) (st : ResultCode) :
    let s := { writingOf op f [] with xstatus := some st, cfg := { vectorCfg with policy := .invalidResponse } }
    s.phase = .waitWrite ∧ s.txbuf = some f ∧ s.opl = some { op := op } ∧ s.xstatus = some st ∧ InSet s.cfg.policy st :=
  ⟨rfl, rfl, rfl, rfl, fun _ => rfl⟩

/-- A wrong phase, another frame in TXBUF, no answer yet, and a status outside the result set. -/
theorem witness_WriteFrameOutsideItsTransferIsRefused :
    (idle true []).phase ≠ .waitWrite ∧
    ((writingOf 0x2 calZeroFrame []).phase = .waitWrite ∧ (writingOf 0x2 calZeroFrame []).txbuf = some calZeroFrame ∧
      calZeroFrame ≠ gasFrame) ∧
    ((writingOf 0x1 gasFrame []).phase = .waitWrite ∧ (writingOf 0x1 gasFrame []).txbuf = some gasFrame ∧
      (writingOf 0x1 gasFrame []).xstatus = none) ∧
    (let s : State := { writingOf 0x1 gasFrame [] with xstatus := some .invalidResponse };
      s.phase = .waitWrite ∧ s.xstatus = some .invalidResponse ∧ ¬ InSet s.cfg.policy .invalidResponse) :=
  ⟨by decide, by decide, by decide, rfl, rfl, (fun h => nomatch h rfl)⟩

theorem witness_ResponseFrameEndsGetGas :
    (∃ s : State, s.phase = .waitRead ∧ s.opl = some { op := 0x1, present := true } ∧ s.xstatus = some .success ∧
      InSet s.cfg.policy .success) ∧
    (∃ s : State, s.phase = .waitRead ∧ s.xstatus = some .invalidResponse ∧ ¬ InSet s.cfg.policy .invalidResponse) ∧
    (idle true []).phase ≠ .waitRead ∧
    (readingGas []).phase = .waitRead ∧ (readingGas []).xstatus = none :=
  ⟨⟨{ readingGas [] with xstatus := some .success }, rfl, rfl, rfl, (fun h => nomatch h)⟩,
    ⟨{ readingGas [] with xstatus := some .invalidResponse }, rfl, rfl, (fun h => nomatch h rfl)⟩, by decide, rfl, rfl⟩

theorem witness_StepRunsTheRequestedInstruction :
    (idle true [.request { op := 0x2 }]).inbox = .request { op := 0x2 } :: [] ∧
    decode (.request { op := 0x2 }) = .ok .calZero := by decide

/-- A write's answer and a read's. -/
theorem witness_StepRunsTheAnsweredFrame :
    ((writingOf 0x1 gasFrame [.answer 0 .success none]).transfers.find? (fun t => t.tag == 0) =
        some ⟨0, some ⟨7⟩, .write gasFrame, .pending⟩ ∧
      decode (.linkWrite gasFrame) = .ok .frameGetGas) ∧
    ((readingGas [.answer 1 .success (some gas1200)]).transfers.find? (fun t => t.tag == 1) =
        some ⟨1, some ⟨7⟩, .read, .pending⟩ ∧
      decode (.linkRead gas1200) = .ok (.frameResponse gas1200)) := by decide

theorem witness_HostReadOfAnUndrivenFieldFaults :
    (idle true [.hostRead .ppm]).inbox = .hostRead .ppm :: [] ∧ (idle true [.hostRead .ppm]).resp.ppm = none ∧
    ({ idle true [.hostRead .ppm] with resp := { ppm := some 5 } } : State).resp.ppm.isSome = true := by decide

theorem witness_ResetGivesEveryElementItsValue : (readingGas [.reset]).inbox = .reset :: [] := rfl

/-- A CAL_ZERO that a reset abandoned, its number 0, and after it a GET_GAS that waits for its write, number 1. -/
def writingAfterAbandon (inbox : List Event) : State :=
  { writingOf 0x1 gasFrame inbox with
    transfers := [⟨1, some ⟨7⟩, .write gasFrame, .pending⟩, ⟨0, some ⟨7⟩, .write calZeroFrame, .abandoned⟩] }

theorem inv_writingAfterAbandon (inbox : List Event) : Inv (writingAfterAbandon inbox) where
  lifecycle := rfl
  idleClear := fun h => by cases h
  scratchClear := ⟨rfl, rfl⟩
  inProgress := fun _ => ⟨rfl, rfl, rfl, _, rfl, rfl⟩
  readIsGetGas := fun h => by cases h
  inFlight := ⟨_, _, rfl, rfl, rfl, ⟨gasFrame, rfl, rfl⟩, fun u hu => by obtain rfl := List.mem_singleton.mp hu; simp⟩
  numbered := ⟨rfl, rfl, trivial⟩
  proper := fun t ht => by
    rcases List.mem_cons.mp ht with rfl | ht
    · exact ⟨rfl, fun g hg => by cases hg; rfl⟩
    · obtain rfl := List.mem_singleton.mp ht
      exact ⟨rfl, fun g hg => by cases hg; rfl⟩

/-- A reset during a write and during a read, and LINK's late answer while a later operation waits. -/
theorem witness_ResetAbandonsTheOperationInProgress :
    (Inv (writingOf 0x2 calZeroFrame [.reset]) ∧ (writingOf 0x2 calZeroFrame [.reset]).phase ≠ .idle) ∧
    (Inv (readingGas [.reset]) ∧ (readingGas [.reset]).phase ≠ .idle) ∧
    Inv (writingAfterAbandon [.answer 0 .ioError none]) ∧
    (writingAfterAbandon []).transfers =
      [⟨1, some ⟨7⟩, .write gasFrame, .pending⟩] ++ ⟨0, some ⟨7⟩, .write calZeroFrame, .abandoned⟩ :: [] ∧
    (none : Option Frame).isSome = decide (XferKind.write calZeroFrame = .read) ∧ InSet vectorCfg.policy .ioError :=
  ⟨⟨inv_writingOf _ rfl rfl, by decide⟩, ⟨inv_readingGas _, by decide⟩, inv_writingAfterAbandon _, rfl, by decide,
    (fun h => nomatch h)⟩

/-- Every op-select from 2 to 6 with a frame, the failing ones, and both lifecycle states. -/
theorem witness_CommandsWriteOneFrameAndReturnLinksStatus :
    Inv (idle true [.request { op := 0x2 }, .answer 0 .ioError none]) ∧
    (idle true [.request { op := 0x2 }, .answer 0 .ioError none]).phase = .idle ∧
    InSet vectorCfg.policy .ioError ∧ (commandOf vectorCfg { op := 0x2 }).isSome = true ∧ (commandOf vectorCfg { op := 0x3, span := 65535 }).isSome = true ∧
    (commandOf vectorCfg { op := 0x4, abc := true }).isSome = true ∧
    (commandOf vectorCfg { op := 0x5, range := 2 }).isSome = true ∧ commandOf vectorCfg { op := 0x5, range := 3 } = none ∧
    (commandOf vectorCfg { op := 0x6, code := 0x86, present := true, size := 5 }).isSome = true ∧
    commandOf vectorCfg { op := 0x6, code := 0x86, present := true, size := 6 } = none ∧
    Inv (idle false [.request { op := 0x6 }]) ∧ (idle false [.request { op := 0x6 }]).init = false :=
  ⟨inv_idle _ _, rfl, (fun h => nomatch h), by decide, by decide, by decide, by decide, by decide, by decide, by decide,
    inv_idle _ _, rfl⟩

/-- The three clauses: a failed check, a failed write, a write and a read. -/
theorem witness_GetGasWritesReadsAndExtracts :
    (Inv (idle false [.request { op := 0x1 }]) ∧ (idle false [.request { op := 0x1 }]).init = false) ∧
    (Inv (idle true [.request { op := 0x1, present := true }, .answer 0 .ioError none]) ∧
      (ResultCode.ioError ≠ .success) ∧ InSet vectorCfg.policy .ioError) ∧
    (Inv (idle true [.request { op := 0x1, present := true }, .answer 0 .success none,
        .answer 1 .success (some gas1200)]) ∧
      (idle true []).init = true ∧ (idle true []).transfers.length = 0) :=
  ⟨⟨inv_idle _ _, rfl⟩, ⟨inv_idle _ _, by decide, (fun h => nomatch h)⟩, inv_idle _ _, rfl, rfl⟩

/-- A sound state and a step that answers a next state, for the statements about every step (EveryStepKeepsTheInvariant,
InitializedExactlyWhenBound, LinkTraceNeverDropsOrReplays, ParametersStandAndInputsGoInOrder). -/
theorem witness_EveryStepKeepsTheInvariant :
    Inv (idle true [.request { op := 0x2 }]) ∧ ∃ t, step (idle true [.request { op := 0x2 }]) = .next t :=
  ⟨inv_idle _ _, _, rfl⟩
theorem witness_InitializedExactlyWhenBound :
    (idle false [.request { op := 0x0, xfer := some ⟨7⟩ }]).init =
      (idle false [.request { op := 0x0, xfer := some ⟨7⟩ }]).xfer.isSome ∧
    ∃ t, step (idle false [.request { op := 0x0, xfer := some ⟨7⟩ }]) = .next t := ⟨rfl, _, rfl⟩
theorem witness_LinkTraceNeverDropsOrReplays :
    Inv (writingOf 0x1 gasFrame [.answer 0 .success none]) ∧
    (∃ t, step (writingOf 0x1 gasFrame [.answer 0 .success none]) = .next t) ∧
    Inv (idle true [.request { op := 0x2 }]) ∧ ∃ t, step (idle true [.request { op := 0x2 }]) = .next t :=
  ⟨inv_writingOf _ rfl rfl, ⟨_, rfl⟩, inv_idle _ _, _, rfl⟩
theorem witness_ParametersStandAndInputsGoInOrder :
    ∃ t, step (idle true [.request { op := 0x4, abc := true }]) = .next t := ⟨_, rfl⟩

/-- Inputs that respect the contract, and one breach of each kind. -/
theorem witness_OnlyABreachOfContractStopsCore :
    (Inv (readingGas [.answer 1 .ioError (some gas1200)]) ∧ (readingGas [.answer 1 .ioError (some gas1200)]).obeys = true) ∧
    (Inv (readingGas [.request { op := 0x8 }]) ∧ (readingGas [.request { op := 0x8 }]).obeys = false) ∧
    (Inv (idle true [.hostRead .frame]) ∧ (idle true [.hostRead .frame]).obeys = false) ∧
    (Inv (readingGas [.answer 1 .success none]) ∧ (readingGas [.answer 1 .success none]).obeys = false) ∧
    (Inv (readingGas [.answer 0 .success none]) ∧ (readingGas [.answer 0 .success none]).obeys = false) ∧
    (Inv (readingGas [.answer 1 .invalidResponse (some gas1200)]) ∧
      (readingGas [.answer 1 .invalidResponse (some gas1200)]).obeys = false) :=
  ⟨⟨inv_readingGas _, by decide⟩, ⟨inv_readingGas _, by decide⟩, ⟨inv_idle _ _, by decide⟩,
    ⟨inv_readingGas _, by decide⟩, ⟨inv_readingGas _, by decide⟩, inv_readingGas _, by decide⟩

/-- A successful INIT, and a reset of an initialized machine. -/
theorem witness_OnlyInitAndResetChangeTheLifecycle :
    (Inv (idle false [.request { op := 0x0, xfer := some ⟨7⟩ }]) ∧
      (nextOf (step (idle false [.request { op := 0x0, xfer := some ⟨7⟩ }]))).map (fun t => (t.init, t.xfer)) =
        some (true, some ⟨7⟩)) ∧
    (Inv (idle true [.reset]) ∧
      (nextOf (step (idle true [.reset]))).map (fun t => (t.init, t.xfer)) = some (false, none)) :=
  ⟨⟨inv_idle _ _, by decide⟩, inv_idle _ _, by decide⟩

theorem witness_CompletionLeavesNothingBehind :
    Inv (readingGas [.answer 1 .success (some gas1200)]) ∧
    (nextOf (step (readingGas [.answer 1 .success (some gas1200)]))).map (·.exchanges.length) = some 1 ∧
    (readingGas [.answer 1 .success (some gas1200)]).exchanges.length = 0 := ⟨inv_readingGas _, by decide, rfl⟩

/-- A request that completes at once, and one that issues its write. -/
theorem witness_RejectedRequestIssuesNoTransfer :
    (Inv (idle false [.request { op := 0x2 }]) ∧ (nextOf (step (idle false [.request { op := 0x2 }]))).isSome = true) ∧
    (Inv (idle true [.request { op := 0x2 }]) ∧ (nextOf (step (idle true [.request { op := 0x2 }]))).isSome = true) :=
  ⟨⟨inv_idle _ _, by decide⟩, inv_idle _ _, by decide⟩

/-- Each transition of R26. -/
theorem witness_PhaseMovesAsTheSequencerSays :
    (nextOf (step (idle true [.request { op := 0x2 }]))).map (·.phase) = some .waitWrite ∧
    (nextOf (step (writingOf 0x1 gasFrame [.answer 0 .success none]))).map (·.phase) = some .waitRead ∧
    (nextOf (step (writingOf 0x1 gasFrame [.answer 0 .ioError none]))).map (·.phase) = some .idle ∧
    (nextOf (step (writingOf 0x2 calZeroFrame [.answer 0 .success none]))).map (·.phase) = some .idle ∧
    (nextOf (step (readingGas [.answer 1 .ioError (some gas1200)]))).map (·.phase) = some .idle ∧
    (nextOf (step (readingGas [.reset]))).map (·.phase) = some .idle ∧
    Inv (idle true [.request { op := 0x2 }]) ∧ Inv (writingOf 0x1 gasFrame [.answer 0 .success none]) ∧
    Inv (readingGas [.reset]) :=
  ⟨by decide, by decide, by decide, by decide, by decide, by decide, inv_idle _ _, inv_writingOf _ rfl rfl,
    inv_readingGas _⟩

theorem witness_OnlyGetGasReadsTheLink :
    Inv (writingOf 0x1 gasFrame [.answer 0 .success none]) ∧
    (nextOf (step (writingOf 0x1 gasFrame [.answer 0 .success none]))).map
      (fun t => (t.transfers.length, t.transfers.head?.map (·.kind))) = some (2, some .read) ∧
    (writingOf 0x1 gasFrame [.answer 0 .success none]).transfers.length + 1 = 2 :=
  ⟨inv_writingOf _ rfl rfl, by decide, rfl⟩

/-- Two machines with different histories. -/
theorem witness_NoOperationReadsWhatAnotherLeft :
    let s := idle true [.request { op := 0x3, span := 2000 }]
    let s' := { idle true [.request { op := 0x3, span := 2000 }] with resp := { ppm := some 400 } }
    Inv s ∧ Inv s' ∧ s.phase = .idle ∧ s'.phase = .idle ∧ s.init = s'.init ∧ s.xfer = s'.xfer ∧ s.cfg = s'.cfg ∧
      s.inbox = s'.inbox ∧ s ≠ s' := by
  refine ⟨inv_idle _ _, inv_idleAfter _ _ _, rfl, rfl, rfl, rfl, rfl, rfl, ?_⟩
  intro h
  have := congrArg (fun s => s.resp.ppm) h
  simp [idle, State.reset] at this

/-- A command answered IoError. -/
theorem witness_ResultCodesStayInTheirSet :
    (Inv (writingOf 0x2 calZeroFrame [.answer 0 .ioError none]) ∧
      CodesInSet (writingOf 0x2 calZeroFrame [.answer 0 .ioError none]) ∧
      ∃ t, step (writingOf 0x2 calZeroFrame [.answer 0 .ioError none]) = .next t) :=
  ⟨inv_writingOf _ rfl rfl,
    ⟨fun _ h => (nomatch h), fun _ h => (nomatch h), fun u hu c rx h => by
      obtain rfl := List.mem_singleton.mp hu
      simp at h⟩,
    _, rfl⟩

/-- A run observed at once, though a reset is to come, and one observed after its INIT. -/
theorem witness_ARunIsObservedWhereItEnds :
    (observeRun 0 (idle true [.reset])).isSome = true ∧
    (observeRun 1 (idle false [.request { op := 0x0, xfer := some ⟨7⟩ }])).map (·.init) = some true := by decide

end Sys2Proof.Tests
end

/-! ## The scope family (00_scope.md): frames on the link, breaches of contract, parameters and result codes -/

namespace Sys2Proof.Machine

open Claims

variable {s t : State} {r : ReqPort} {st : ResultCode} {rx : Option Frame} {tag : Nat}

/-! ### The codec's functions with numbers -/

/-- A byte cut out of a word is a quotient of its number (R14, R68). -/
theorem extractByte_eq_ofNat {n : Nat} (v : BitVec n) (k : Nat) :
    v.extractLsb' k 8 = BitVec.ofNat 8 (v.toNat / 2 ^ k) :=
  congrArg (BitVec.ofNat 8) (Nat.shiftRight_eq_div_pow v.toNat k)

/-- The stored checksum closes the sum exactly when it is the computed one (R78). -/
theorem b8_eq_cksum_iff (f : Frame) : f.b8 = cksum f ↔ sum8 f % 256 = 0 := by
  have hsum : (bodySum f + f.b8).toNat = sum8 f % 256 := by simp [bodySum, sum8, sum7, BitVec.toNat_add]
  have hcancel : f.b8 = cksum f ↔ bodySum f + f.b8 = 0 := by
    rw [← bodySum_add_cksum f]
    exact ⟨fun h => congrArg (bodySum f + ·) h, (BitVec.add_right_inj _).mp⟩
  rw [hcancel, ← hsum, ← BitVec.toNat_inj]
  rfl

/-- The validator of R73 accepts exactly the intact frames of R78. -/
theorem valid_eq_intact (f : Frame) : valid f = intact f := by
  have hstart : f.b0 = startMarker ↔ f.b0.toNat = 0xFF := BitVec.toNat_inj.symm
  rw [Bool.eq_iff_iff, valid_iff, hstart, b8_eq_cksum_iff]
  simp [intact]

/-- The concentration as a number (R75). -/
theorem ppmOf_eq_ofNat (f : Frame) : ppmOf f = BitVec.ofNat 16 (f.b2.toNat * 256 + f.b3.toNat) := by
  have hor := Nat.shiftLeft_add_eq_or_of_lt f.b3.isLt f.b2.toNat
  have hhi := f.b2.isLt
  have hlo := f.b3.isLt
  apply BitVec.eq_of_toNat_eq
  simp only [ppmOf, BitVec.toNat_or, BitVec.toNat_shiftLeft, BitVec.toNat_setWidth, BitVec.toNat_ofNat]
  rw [Nat.mod_eq_of_lt (by omega : f.b2.toNat < 2 ^ 16), Nat.mod_eq_of_lt (by omega : f.b3.toNat < 2 ^ 16),
    Nat.mod_eq_of_lt (by rw [Nat.shiftLeft_eq]; omega : f.b2.toNat <<< 8 < 2 ^ 16), ← hor, Nat.shiftLeft_eq]
  omega

theorem corruptResult_eq (p : ResponsePolicy) : corruptResult p = invalidFrameResult p .success := by
  cases p <;> rfl

/-! ### The frame rows run as the write or the read of their frame -/

theorem exec_frameGetGas : exec .frameGetGas s = finishWrite gasFrame s := rfl

theorem exec_frameCalZero :
    exec .frameCalZero s = finishWrite ⟨0xFF, 0x01, 0x87, 0x00, 0x00, 0x00, 0x00, 0x00, 0x78⟩ s := rfl

theorem exec_frameCalSpan (v : BitVec 16) (c : Byte) :
    exec (.frameCalSpan v c) s = finishWrite
      ⟨0xFF, 0x01, 0x88, BitVec.ofNat 8 (v.toNat / 256), BitVec.ofNat 8 v.toNat, 0, 0, 0, c⟩ s := by
  refine congrArg (finishWrite · s) (?_ : calSpanFrame v c = _)
  simp [calSpanFrame, requestFrame, spanPayload, hiByte, loByte, extractByte_eq_ofNat, startMarker, deviceByte, cmdSpan]

theorem exec_frameSetAbc (a c : Byte) :
    exec (.frameSetAbc a c) s = finishWrite ⟨0xFF, 0x01, 0x79, a, 0, 0, 0, 0, c⟩ s := rfl

theorem exec_frameSetRange (v : BitVec 32) (c : Byte) :
    exec (.frameSetRange v c) s = finishWrite
      ⟨0xFF, 0x01, 0x99, 0, BitVec.ofNat 8 (v.toNat / 2 ^ 24), BitVec.ofNat 8 (v.toNat / 2 ^ 16),
        BitVec.ofNat 8 (v.toNat / 2 ^ 8), BitVec.ofNat 8 v.toNat, c⟩ s := by
  refine congrArg (finishWrite · s) (?_ : setRangeFrame v c = _)
  simp [setRangeFrame, requestFrame, rangePayload, extractByte_eq_ofNat, startMarker, deviceByte, cmdRange]

theorem exec_frameRequest (k : Byte) (p : Payload) (c : Byte) :
    exec (.frameRequest k p c) s = finishWrite ⟨0xFF, 0x01, k, p.p0, p.p1, p.p2, p.p3, p.p4, c⟩ s := rfl

theorem exec_frameResponse (g : Frame) : exec (.frameResponse g) s = finishRead g s := rfl

/-- An instruction that is no request is the write of one frame or the read of one frame. -/
theorem exec_frame {i : Instr} (hi : i.isRequest = false) :
    (∃ f, ∀ s, exec i s = finishWrite f s) ∨ ∃ g, ∀ s, exec i s = finishRead g s := by
  cases i with
  | frameRequest _ _ _ | frameGetGas | frameCalZero | frameCalSpan _ _ | frameSetAbc _ _ | frameSetRange _ _ =>
    exact .inl ⟨_, fun _ => rfl⟩
  | frameResponse g => exact .inr ⟨g, fun _ => rfl⟩
  | init _ | getGas _ | calZero | calSpan _ | setAbc _ | setRange _ | send _ _ _ _ | cksum _ | validate _
  | build _ _ _ _ | parse _ | reserved7 | reservedC | reservedD | reservedE | reservedF => nomatch hi

/-! ### LINK's answer with a request latched -/

/-- What an answered write leads to once a request is latched (R88, R89, R91, R103). -/
theorem afterWrite_of_latched (ho : s.opl = some r) :
    afterWrite st s = .next
      (if r.op = opGetGas then
        if st = .success then reading s else finished s r { status := some st, ppmWe := some false }
      else finished s r { status := some st }) := by
  simp only [afterWrite, complete, ho]
  split_ifs <;> rfl

/-- What an answered read leads to once a request is latched (R91). -/
theorem afterRead_of_latched (g : Frame) (ho : s.opl = some r) :
    afterRead st g s = .next (finished s r (gasResponse s.cfg st g)) := by
  rw [afterRead_next]
  unfold gasResponse
  by_cases hst : st = .success
  · cases hv : valid g
    · refine .inr (.inr ⟨hst, rfl, ?_⟩)
      refine (complete_of_latched (r := r) ho).trans ?_
      simp [hst, ← valid_eq_intact, hv, corruptResult_eq, finished, State.done]
    · refine .inr (.inl ⟨hst, rfl, ?_⟩)
      refine (complete_of_latched (r := r) ho).trans ?_
      simp [hst, ← valid_eq_intact, hv, ppmOf_eq_ofNat, finished, State.done]
  · refine .inl ⟨hst, ?_⟩
    rw [complete_of_latched ho, if_pos hst]
    rfl

/-! ### Where a frame is refused or waits -/

theorem whenInSet_of_not_mem {p : Result} (h : inResultSet s.cfg.policy st ≠ true) :
    whenInSet st s p = .refused .linkContract := by
  simp [whenInSet, h]

theorem finishWrite_of_other_phase (f : Frame) (hp : s.phase ≠ .waitWrite) :
    finishWrite f s = .refused .linkContract := by
  unfold finishWrite
  split
  · contradiction
  · rfl
  · rfl

theorem finishWrite_of_other_frame {f u : Frame} (hp : s.phase = .waitWrite) (ht : s.txbuf = some u) (hu : u ≠ f) :
    finishWrite f s = .refused .linkContract := by
  simp [finishWrite, hp, ht, hu]

/-- CORE's reaction to an answered write is guarded by the result set alone (R15, R118). -/
theorem finishWrite_sampled {f : Frame} (hp : s.phase = .waitWrite) (ht : s.txbuf = some f) (hx : s.xstatus = some st) :
    finishWrite f s = whenInSet st s (afterWrite st s) := by
  simp [finishWrite, hp, ht, hx]

theorem finishWrite_unanswered {f : Frame} (hp : s.phase = .waitWrite) (ht : s.txbuf = some f) (hx : s.xstatus = none) :
    finishWrite f s = .next s :=
  finishWrite_next.mpr ⟨hp, ht, .inl ⟨hx, rfl⟩⟩

theorem finishRead_of_other_phase (g : Frame) (hp : s.phase ≠ .waitRead) :
    finishRead g s = .refused .linkContract := by
  unfold finishRead
  split
  · contradiction
  · rfl
  · rfl

/-- CORE's reaction to an answered read is guarded by the result set alone (R15, R118). -/
theorem finishRead_sampled (g : Frame) (hp : s.phase = .waitRead) (hx : s.xstatus = some st) :
    finishRead g s = whenInSet st s (afterRead st g s) := by
  simp [finishRead, hp, hx]

/-- The common meaning of the write frames, once for all six rows. -/
theorem answerTakesOn_of_finishWrite {i : Instr} {f : Frame} (h : ∀ s, exec i s = finishWrite f s) :
    AnswerTakesOn i f := fun s _ _ hp ht ho hx hset => by
  rw [h s, finishWrite_answered hp ht hx (inResultSet_iff.mpr hset)]
  exact afterWrite_of_latched ho

/-- Where the write frames stop or wait, once for all six rows. -/
theorem needsItsTransfer_of_finishWrite {i : Instr} {f : Frame} (h : ∀ s, exec i s = finishWrite f s) :
    NeedsItsTransfer i f := fun s => by
  rw [h s]
  refine ⟨finishWrite_of_other_phase f, fun _ => finishWrite_of_other_frame, fun st hp ht hx hset => ?_,
    finishWrite_unanswered⟩
  rw [finishWrite_sampled hp ht hx]
  exact whenInSet_of_not_mem (mt inResultSet_iff.mp hset)

/-! ### A request CORE may take is answered -/

theorem checked_answers {sf pf : Option ResultCode} {out : Resp} {p : Result} (ho : s.opl = some r)
    (hp : ∃ t, p = .next t) : ∃ t, checked sf pf out s p = .next t := by
  unfold checked
  split
  · exact ⟨_, complete_of_latched ho⟩
  · exact hp

/-- An idle CORE answers every latched request with a next state (R17, R87). -/
theorem exec_request_answers {i : Instr} (hi : i.isRequest = true) (hp : s.phase = .idle) (ho : s.opl = some r) :
    ∃ t, exec i s = .next t := by
  have idle {p : Result} (h : ∃ t, p = .next t) : ∃ t, whenIdle s p = .next t := by rwa [whenIdle_of_idle hp]
  cases i with
  | init x => exact idle (checked_answers ho ⟨_, complete_of_latched (r := r) ho⟩)
  | getGas _ | calZero | calSpan _ | setAbc _ | setRange _ | send _ _ _ _ =>
    exact idle (checked_answers ho ⟨_, rfl⟩)
  | build k pp n p =>
    refine idle ?_
    split
    · exact ⟨_, complete_of_latched ho⟩
    · exact ⟨_, complete_of_latched ho⟩
  | cksum _ | validate _ | parse _ | reserved7 | reservedC | reservedD | reservedE | reservedF =>
    exact idle ⟨_, complete_of_latched ho⟩
  | frameRequest _ _ _ | frameGetGas | frameCalZero | frameCalSpan _ _ | frameSetAbc _ _ | frameSetRange _ _
  | frameResponse _ => nomatch hi

/-! ### LINK's answers, those it may give and those it may not -/

/-- LINK's answer in its form to the transfer CORE waits for takes CORE on, if its status belongs to the result set. -/
theorem takeEvent_pending_answer (hi : Inv s) {u : Transfer} (hu : s.transfer? tag = some u)
    (hpend : u.outcome = .pending) (hfit : u.kind.fits rx = true) :
    ∃ t, takeEvent (.answer tag st rx) s = whenInSet st s (.next t) := by
  obtain ⟨hm, -⟩ := mem_of_transfer? hu
  obtain ⟨older, -, ⟨hp, f, htx, hk⟩ | ⟨hp, hk⟩⟩ := pending_is_newest hi hm hpend
  · obtain ⟨-, -, -, r, ho, -⟩ := hi.inProgress (by simp [hp])
    obtain rfl : rx = none := by simpa [hk, XferKind.fits] using hfit
    have hw : s.answerWord tag none = some (.linkWrite f) :=
      answerWord_eq_some.mpr ⟨u, hu, hpend, .inl ⟨f, hk, rfl, rfl⟩⟩
    have hf := (hi.proper u hm).2 f hk
    simp only [couldHaveWritten, Bool.and_eq_true, beq_iff_eq] at hf
    obtain ⟨⟨⟨h0, h1⟩, -⟩, -⟩ := hf
    simp only [takeEvent, hw]
    rw [runWord_write h0 h1, finishWrite_sampled (s := s.sample tag st none) hp htx rfl,
      afterWrite_of_latched (s := s.sample tag st none) ho]
    exact ⟨_, rfl⟩
  · obtain ⟨-, -, -, r, ho, -⟩ := hi.inProgress (by simp [hp])
    obtain ⟨g, rfl⟩ : ∃ g, rx = some g := by simpa [hk, XferKind.fits, Option.isSome_iff_exists] using hfit
    have hw : s.answerWord tag (some g) = some (.linkRead g) :=
      answerWord_eq_some.mpr ⟨u, hu, hpend, .inr ⟨g, hk, rfl, rfl⟩⟩
    simp only [takeEvent, hw]
    rw [runWord_read, execFrameResponse, finishRead_sampled (s := s.sample tag st (some g)) g hp rfl,
      afterRead_of_latched (s := s.sample tag st (some g)) g ho]
    exact ⟨_, rfl⟩

/-- An answer that completes no pending transfer is a late one. -/
theorem takeEvent_late_answer (h : ∀ u, s.transfer? tag = some u → u.outcome = .pending → u.kind.fits rx = false) :
    takeEvent (.answer tag st rx) s = lateAnswer tag st rx s := by
  have hw : s.answerWord tag rx = none := by
    refine Option.eq_none_iff_forall_ne_some.mpr fun w hw => ?_
    obtain ⟨u, hu, hpend, ⟨f, hk, rfl, -⟩ | ⟨g, hk, rfl, -⟩⟩ := answerWord_eq_some.mp hw
    · simpa [hk, XferKind.fits] using h u hu hpend
    · simpa [hk, XferKind.fits] using h u hu hpend
  simp only [takeEvent, hw]

/-- LINK answers transfer `tag` as its contract allows, but for the status: it waits for LINK or a reset abandoned it, and
the bytes have the form of its kind (R32, R116, R118). -/
def State.mayAnswer (tag : Nat) (rx : Option Frame) (s : State) : Prop :=
  ∃ u, s.transfer? tag = some u ∧ (u.outcome = .pending ∨ u.outcome = .abandoned) ∧ u.kind.fits rx = true

theorem takeEvent_answer_allowed (hi : Inv s) (h : s.mayAnswer tag rx) :
    ∃ t, takeEvent (.answer tag st rx) s = whenInSet st s (.next t) := by
  obtain ⟨u, hu, hpend | hab, hfit⟩ := h
  · exact takeEvent_pending_answer hi hu hpend hfit
  · refine ⟨s.settle tag (.discarded st rx), ?_⟩
    rw [takeEvent_late_answer fun v hv hpend => ?_]
    · simp [lateAnswer, hu, hab, hfit]
    · obtain rfl : u = v := Option.some.inj (hu.symm.trans hv)
      simp [hab] at hpend

theorem takeEvent_answer_not_allowed (h : ¬ s.mayAnswer tag rx) :
    takeEvent (.answer tag st rx) s = .refused .linkContract := by
  rw [takeEvent_late_answer fun u hu hpend => ?_]
  · unfold lateAnswer
    split
    · rfl
    · next u hu => exact if_neg fun ⟨hab, hfit⟩ => h ⟨u, hu, .inr hab, hfit⟩
  · exact Bool.eq_false_iff.mpr fun hfit => h ⟨u, hu, .inl hpend, hfit⟩

/-- The contract of an answer: its transfer, its form and its status (R15, R32, R118). -/
theorem obeys_answer {rest : List Event} (hin : s.inbox = .answer tag st rx :: rest) :
    s.obeys = true ↔ s.mayAnswer tag rx ∧ inResultSet s.cfg.policy st = true := by
  unfold State.obeys State.mayAnswer
  rw [hin]
  cases hu : s.transfer? tag with
  | none => simp [hu]
  | some u => simp [hu]

/-- Taking an input off leaves a sound state sound. -/
theorem Inv.after (hi : Inv s) (rest : List Event) : Inv (s.after rest) :=
  ⟨hi.lifecycle, hi.idleClear, hi.scratchClear, hi.inProgress, hi.readIsGetGas, hi.inFlight, hi.numbered, hi.proper⟩

/-! ### What no meaning changes -/

/-- The parameters and the inputs to come are those of `s`. -/
def SameInputs (s t : State) : Prop := t.cfg = s.cfg ∧ t.inbox = s.inbox

theorem sameInputs_of_complete {out : Resp} (h : complete st out s = .next t) : SameInputs s t := by
  obtain ⟨r, -, rfl⟩ := complete_next.mp h
  exact ⟨rfl, rfl⟩

theorem sameInputs_of_afterWrite (h : afterWrite st s = .next t) : SameInputs s t := by
  obtain ⟨r, -, ⟨-, -, h⟩ | ⟨-, -, h⟩ | ⟨-, h⟩⟩ := afterWrite_next.mp h
  · rw [doRead_next.mp h]
    exact ⟨rfl, rfl⟩
  · exact sameInputs_of_complete h
  · exact sameInputs_of_complete h

theorem sameInputs_of_afterRead {g : Frame} (h : afterRead st g s = .next t) : SameInputs s t := by
  obtain ⟨-, h⟩ | ⟨-, -, h⟩ | ⟨-, -, h⟩ := afterRead_next.mp h
  · exact sameInputs_of_complete h
  · exact sameInputs_of_complete (s := { s with rxbuf := some g }) h
  · exact sameInputs_of_complete (s := { s with rxbuf := some g }) h

/-- No instruction touches the parameters or the inputs to come (R8 to R11). -/
theorem sameInputs_of_exec {i : Instr} (h : exec i s = .next t) : SameInputs s t := by
  cases hi : i.isRequest with
  | true =>
    obtain ⟨-, ⟨st, out, -, h⟩ | ⟨l, -, -, h⟩ | ⟨f, -, -, -, h⟩⟩ := exec_request_next hi h
    · exact sameInputs_of_complete h
    · exact sameInputs_of_complete (s := s.bind l) h
    · rw [doWrite_next.mp h]
      exact ⟨rfl, rfl⟩
  | false =>
    obtain ⟨f, hf⟩ | ⟨g, hg⟩ := exec_frame hi
    · obtain ⟨-, -, ⟨-, rfl⟩ | ⟨st, -, -, h⟩⟩ := finishWrite_next.mp (hf s ▸ h)
      · exact ⟨rfl, rfl⟩
      · exact sameInputs_of_afterWrite h
    · obtain ⟨-, ⟨-, rfl⟩ | ⟨st, -, -, h⟩⟩ := finishRead_next.mp (hg s ▸ h)
      · exact ⟨rfl, rfl⟩
      · exact sameInputs_of_afterRead h

theorem sameInputs_of_runWord {w : PortWord} (h : runWord w s = .next t) : SameInputs s t := by
  unfold runWord at h
  split at h
  · exact sameInputs_of_exec h
  · nomatch h

/-- CORE's reaction to an input leaves the parameters and the inputs behind it alone (R51). -/
theorem sameInputs_of_takeEvent {e : Event} (h : takeEvent e s = .next t) : SameInputs s t := by
  cases e with
  | request r => exact sameInputs_of_runWord (s := s.latch r) (w := .request r) h
  | answer tag st rx =>
    rw [takeEvent] at h
    split at h
    · exact sameInputs_of_runWord (s := s.sample tag st rx) h
    · obtain ⟨u, -, -, -, -, rfl⟩ := lateAnswer_next.mp h
      exact ⟨rfl, rfl⟩
  | hostRead field =>
    obtain ⟨-, rfl⟩ := hostReads_next.mp h
    exact ⟨rfl, rfl⟩
  | reset =>
    obtain rfl := Host.Outcome.next.inj h
    exact ⟨rfl, rfl⟩

/-! ### Result codes stay in their set, update by update -/

theorem codesInSet_latch (h : CodesInSet s) (r : ReqPort) : CodesInSet (s.latch r) := by
  obtain ⟨-, hpairs, htrace⟩ := h
  exact ⟨fun _ hc => (nomatch hc), hpairs, htrace⟩

theorem codesInSet_done (h : CodesInSet s) (r : ReqPort) {p : Resp} (hp : p.inSet s.cfg.policy) :
    CodesInSet (s.done r p) := by
  obtain ⟨-, hpairs, htrace⟩ := h
  obtain ⟨c, hc, hset⟩ := hp
  have hresp : ∀ d, p.status = some d → InSet s.cfg.policy d := fun d hd =>
    Option.some.inj (hc.symm.trans hd) ▸ inResultSet_iff.mp hset
  refine ⟨hresp, fun e he => ?_, htrace⟩
  rcases List.mem_cons.mp he with rfl | he
  · exact hresp
  · exact hpairs e he

theorem codesInSet_issue (h : CodesInSet s) (k : XferKind) : CodesInSet (s.issue k) := by
  obtain ⟨hresp, hpairs, htrace⟩ := h
  refine ⟨hresp, hpairs, fun u hu => ?_⟩
  rcases List.mem_cons.mp hu with rfl | hu
  · simp
  · exact htrace u hu

/-- An outcome whose code, if it has one, belongs to the result set may be recorded. -/
theorem codesInSet_settle (h : CodesInSet s) (tag : Nat) {o : TransferOutcome}
    (ho : ∀ c rx, o = .answered c rx ∨ o = .discarded c rx → InSet s.cfg.policy c) : CodesInSet (s.settle tag o) := by
  obtain ⟨hresp, hpairs, htrace⟩ := h
  refine ⟨hresp, hpairs, fun u hu => ?_⟩
  obtain ⟨v, hv, rfl⟩ := List.mem_map.mp hu
  split
  · exact ho
  · exact htrace v hv

theorem codesInSet_sample (h : CodesInSet s) (tag : Nat) (rx : Option Frame) (hst : inResultSet s.cfg.policy st = true) :
    CodesInSet (s.sample tag st rx) :=
  codesInSet_settle h tag fun _ _ ho => ho.elim (fun ho => by cases ho; exact inResultSet_iff.mp hst) nofun

theorem codesInSet_discard (h : CodesInSet s) (tag : Nat) (rx : Option Frame) (hst : inResultSet s.cfg.policy st = true) :
    CodesInSet (s.settle tag (.discarded st rx)) :=
  codesInSet_settle h tag fun _ _ ho => ho.elim nofun fun ho => by cases ho; exact inResultSet_iff.mp hst

/-- Abandoning a transfer gives it no code (R116). -/
theorem codesInSet_resetNow (h : CodesInSet s) : CodesInSet s.resetNow := by
  obtain ⟨-, hpairs, htrace⟩ := h
  refine ⟨fun _ hc => (nomatch hc), hpairs, fun u hu => ?_⟩
  obtain ⟨v, hv, rfl⟩ := List.mem_map.mp hu
  unfold Transfer.abandon
  split
  · simp
  · exact htrace v hv

theorem codesInSet_reset : CodesInSet State.reset :=
  ⟨fun _ hc => (nomatch hc), fun _ he => (nomatch he), fun _ hu => (nomatch hu)⟩

theorem codesInSet_step (hi : Inv s) (h : CodesInSet s) (hstep : step s = .next t) : CodesInSet t := by
  have hafter (rest : List Event) : CodesInSet (s.after rest) := h
  cases step_next hi hstep with
  | waits _ ht => exact ht ▸ h
  | completes r rest _ _ _ hs ht => exact ht ▸ codesInSet_done (codesInSet_latch (hafter rest) r) r hs
  | binds r rest l _ _ _ _ _ ht =>
    have hbound : CodesInSet (((s.after rest).latch r).bind (some l)) := codesInSet_latch (hafter rest) r
    exact ht ▸ codesInSet_done hbound r ⟨_, rfl, rfl⟩
  | writes r rest f _ _ _ _ _ ht => exact ht ▸ codesInSet_issue (codesInSet_latch (hafter rest) r) (.write f)
  | reads u _ rest _ _ _ _ _ _ _ _ ht =>
    exact ht ▸ codesInSet_issue (codesInSet_sample (hafter rest) u.tag none rfl) .read
  | ends u _ _ rest r _ _ _ _ _ _ _ _ hst hs ht =>
    exact ht ▸ codesInSet_done (codesInSet_sample (hafter rest) u.tag none hst) r hs
  | extracts u _ _ g rest r _ _ _ _ _ _ hst hs ht =>
    exact ht ▸ codesInSet_done (codesInSet_sample (hafter rest) u.tag (some g) hst) r hs
  | discards u _ rx rest _ _ _ _ hst ht => exact ht ▸ codesInSet_discard (hafter rest) u.tag rx hst
  | hostReads _ rest _ _ ht => exact ht ▸ hafter rest
  | resets rest _ ht => exact ht ▸ codesInSet_resetNow (hafter rest)

end Sys2Proof.Machine

/-! ### The obligations of the scope family -/

namespace Sys2Proof.Proofs

open Machine Claims

/-- Settles O28: each write frame is the completion of the write of its frame, which reads OPL. -/
theorem answeredWriteTakesTheOperationOn : Obligations.AnsweredWriteTakesTheOperationOn :=
  ⟨answerTakesOn_of_finishWrite fun _ => exec_frameGetGas,
    answerTakesOn_of_finishWrite fun _ => exec_frameCalZero,
    fun v c => answerTakesOn_of_finishWrite fun _ => exec_frameCalSpan v c,
    fun a c => answerTakesOn_of_finishWrite fun _ => exec_frameSetAbc a c,
    fun v c => answerTakesOn_of_finishWrite fun _ => exec_frameSetRange v c,
    fun k p c => answerTakesOn_of_finishWrite fun _ => exec_frameRequest k p c⟩

/-- Settles O30: the read's reaction under each status, and where it is refused or waits. -/
theorem responseFrameEndsGetGas : Obligations.ResponseFrameEndsGetGas := by
  intro s g
  rw [exec_frameResponse]
  refine ⟨fun r st hp ho hx hset => ?_, finishRead_of_other_phase g, fun st hp hx hset => ?_, fun hp hx => ?_⟩
  · rw [finishRead_answered hp hx (inResultSet_iff.mpr hset), afterRead_of_latched g ho]
  · rw [finishRead_sampled g hp hx]
    exact whenInSet_of_not_mem (mt inResultSet_iff.mp hset)
  · exact finishRead_next.mpr ⟨hp, .inl ⟨hx, rfl⟩⟩

/-- Settles O41, by the kind of the next input: a request stops CORE exactly when it is busy, a read exactly when the field
holds no value, an answer exactly when its transfer, its form or its status is wrong. -/
theorem onlyABreachOfContractStopsCore : Obligations.OnlyABreachOfContractStopsCore := by
  intro s hi
  cases hin : s.inbox with
  | nil => exact ⟨fun _ => ⟨s, step_nil hin⟩, fun h => by simp [State.obeys, hin] at h⟩
  | cons e rest =>
    rw [step_cons hin]
    cases e with
    | request r =>
      have hbusy : s.obeys = !s.busy := by simp [State.obeys, hin]
      rw [hbusy, takeEvent, runWord_request]
      constructor
      · intro h
        have hidle : s.phase = .idle := State.busy_eq_false.mp (by simpa using h)
        exact exec_request_answers (decodeRequest_isRequest r) hidle rfl
      · intro h
        have hb : s.busy = true := by simpa using h
        exact .inl ⟨r, rest, rfl, exec_request_busy (decodeRequest_isRequest r) hb⟩
    | answer tag st rx =>
      by_cases hmay : (s.after rest).mayAnswer tag rx
      · obtain ⟨t, ht⟩ := takeEvent_answer_allowed (st := st) (hi.after rest) hmay
        have hobeys : s.obeys = true ↔ inResultSet s.cfg.policy st = true :=
          (obeys_answer hin).trans (and_iff_right hmay)
        refine ⟨fun h => ⟨t, ht.trans (whenInSet_of_mem (hobeys.mp h))⟩, fun h => .inr (.inr ?_)⟩
        rw [← Bool.not_eq_true, hobeys] at h
        exact ⟨tag, st, rx, rest, rfl, ht.trans (whenInSet_of_not_mem h)⟩
      · refine ⟨fun h => absurd ((obeys_answer hin).mp h).1 hmay, fun _ => .inr (.inr ?_)⟩
        exact ⟨tag, st, rx, rest, rfl, takeEvent_answer_not_allowed hmay⟩
    | hostRead field =>
      have hdrives : s.obeys = s.resp.drives field := by simp [State.obeys, hin]
      rw [hdrives, takeEvent]
      refine ⟨fun h => ⟨_, hostReads_next.mpr ⟨h, rfl⟩⟩, fun h => .inr (.inl ⟨field, rest, rfl, ?_⟩)⟩
      simp [Machine.hostReads, h]
    | reset => exact ⟨fun _ => ⟨_, rfl⟩, fun h => by simp [State.obeys, hin] at h⟩

/-- Settles O49: with no input nothing changes, and a reaction leaves parameters and inputs alone. -/
theorem parametersStandAndInputsGoInOrder : Obligations.ParametersStandAndInputsGoInOrder := by
  intro s t h
  cases hin : s.inbox with
  | nil =>
    rw [step_nil hin] at h
    obtain rfl := Host.Outcome.next.inj h
    exact ⟨rfl, hin⟩
  | cons e rest =>
    rw [step_cons hin] at h
    exact sameInputs_of_takeEvent h

/-- Settles O50, by what a step can do from a sound state. -/
theorem resultCodesStayInTheirSet : Obligations.ResultCodesStayInTheirSet :=
  ⟨codesInSet_reset, fun _ _ => codesInSet_step⟩

/-- Settles O14: neither check, one of them, or both fail. -/
theorem guardOrderPicksTheFirstFailure : Obligations.GuardOrderPicksTheFirstFailure := by
  intro sf pf
  cases sf <;> cases pf <;> exact ⟨rfl, rfl⟩

/-- Settles O29: each write frame is the completion of the write of its frame, refused or waiting in the same places. -/
theorem writeFrameOutsideItsTransferIsRefused : Obligations.WriteFrameOutsideItsTransferIsRefused :=
  ⟨needsItsTransfer_of_finishWrite fun _ => exec_frameGetGas,
    needsItsTransfer_of_finishWrite fun _ => exec_frameCalZero,
    fun v c => needsItsTransfer_of_finishWrite fun _ => exec_frameCalSpan v c,
    fun a c => needsItsTransfer_of_finishWrite fun _ => exec_frameSetAbc a c,
    fun v c => needsItsTransfer_of_finishWrite fun _ => exec_frameSetRange v c,
    fun k p c => needsItsTransfer_of_finishWrite fun _ => exec_frameRequest k p c⟩

/-- Settles O31: taking a request latches it and runs what it decodes to. -/
theorem stepRunsTheRequestedInstruction : Obligations.StepRunsTheRequestedInstruction := by
  intro s r rest i hin hdec
  rw [step_cons hin, takeEvent, runWord, hdec]
  rfl

end Sys2Proof.Proofs

/-! ## The state family (10_state.md): the invariant of CORE, its lifecycle, its phases and its elements -/

namespace Sys2Proof.Machine

open Claims

variable {s t : State} {r : ReqPort} {st : ResultCode} {rx : Option Frame} {f : Frame} {u : Transfer}
  {older : List Transfer}

/-! ### The link trace -/

/-- A link trace that no transfer is pending on: numbered in order, every entry proper (R24, R49, R62, R70). -/
structure Quiet (l : List Transfer) : Prop where
  numbered : Numbered l
  proper : ∀ v ∈ l, v.proper
  settled : ∀ v ∈ l, v.outcome ≠ .pending

/-- The entry of transfer `tag` with its outcome replaced, any other entry as it is. -/
def Transfer.resolve (tag : Nat) (o : TransferOutcome) (v : Transfer) : Transfer :=
  if v.tag = tag then { v with outcome := o } else v

theorem settle_eq_map_resolve (tag : Nat) (o : TransferOutcome) :
    (s.settle tag o).transfers = s.transfers.map (Transfer.resolve tag o) := rfl

theorem resolve_of_ne {tag : Nat} {o : TransferOutcome} (h : u.tag ≠ tag) : u.resolve tag o = u := if_neg h

/-- Two entries for one transfer: number, binding and kind are the same, whatever became of it. -/
def SameTransfer (v w : Transfer) : Prop := v.tag = w.tag ∧ v.link = w.link ∧ v.kind = w.kind

theorem sameTransfer_resolve (tag : Nat) (o : TransferOutcome) (v : Transfer) : SameTransfer (v.resolve tag o) v := by
  unfold Transfer.resolve
  split <;> exact ⟨rfl, rfl, rfl⟩

theorem sameTransfer_abandon (v : Transfer) : SameTransfer v.abandon v := by
  unfold Transfer.abandon
  split <;> exact ⟨rfl, rfl, rfl⟩

/-- A change of outcomes alone keeps the numbers. -/
theorem numbered_map {g : Transfer → Transfer} (hg : ∀ v, SameTransfer (g v) v) :
    ∀ l : List Transfer, Numbered l → Numbered (l.map g)
  | [], _ => trivial
  | v :: l, ⟨hv, hl⟩ => ⟨by rw [(hg v).1, hv, List.length_map], numbered_map hg l hl⟩

/-- A change of outcomes alone keeps every entry proper. -/
theorem proper_map {g : Transfer → Transfer} (hg : ∀ v, SameTransfer (g v) v) {l : List Transfer}
    (hl : ∀ v ∈ l, v.proper) : ∀ v ∈ l.map g, v.proper := by
  intro v hv
  obtain ⟨w, hw, rfl⟩ := List.mem_map.mp hv
  obtain ⟨-, hlink, hkind⟩ := hg w
  unfold Transfer.proper
  rw [hlink, hkind]
  exact hl w hw

/-- Resolving one entry makes no other pending. -/
theorem settled_map_resolve {tag : Nat} {o : TransferOutcome} (ho : o ≠ .pending) {l : List Transfer}
    (hl : ∀ v ∈ l, v.outcome ≠ .pending) : ∀ v ∈ l.map (Transfer.resolve tag o), v.outcome ≠ .pending := by
  intro v hv
  obtain ⟨w, hw, rfl⟩ := List.mem_map.mp hv
  unfold Transfer.resolve
  split
  · exact ho
  · exact hl w hw

/-- Nothing is pending on the trace of an idle CORE (R51). -/
theorem Inv.quiet (hi : Inv s) (hp : s.phase = .idle) : Quiet s.transfers := by
  have hfl := hi.inFlight
  rw [InFlight, hp] at hfl
  exact ⟨hi.numbered, hi.proper, hfl⟩

/-- In a busy CORE's trace only the newest entry is pending (R51). -/
theorem Inv.settled_older (hi : Inv s) (hp : s.phase ≠ .idle) (hl : s.transfers = u :: older) :
    ∀ v ∈ older, v.outcome ≠ .pending := by
  have hfl := hi.inFlight
  unfold InFlight at hfl
  split at hfl
  · contradiction
  · obtain ⟨v, l, hvl, -, -, -, ho⟩ := hfl
    obtain ⟨-, rfl⟩ := List.cons.inj (hl.symm.trans hvl)
    exact ho
  · obtain ⟨v, l, hvl, -, -, -, ho⟩ := hfl
    obtain ⟨-, rfl⟩ := List.cons.inj (hl.symm.trans hvl)
    exact ho

/-- LINK's answer to the transfer CORE waits for leaves nothing pending (R32, R51). -/
theorem Inv.quiet_sample (hi : Inv s) (hp : s.phase ≠ .idle) (hl : s.transfers = u :: older) :
    Quiet (s.sample u.tag st rx).transfers := by
  have hn : Numbered (u :: older) := hl ▸ hi.numbered
  have hprop : ∀ v ∈ u :: older, v.proper := hl ▸ hi.proper
  have htr : (s.sample u.tag st rx).transfers = { u with outcome := .answered st rx } :: older := by
    rw [State.sample_transfers, State.settle_transfers, hl, settle_newest hn]
  rw [htr]
  refine ⟨hn, List.forall_mem_cons.mpr ⟨hprop u (by simp), fun v hv => hprop v (by simp [hv])⟩, ?_⟩
  exact List.forall_mem_cons.mpr ⟨by simp, hi.settled_older hp hl⟩

/-- A reset leaves nothing pending (R116). -/
theorem Inv.quiet_abandon (hi : Inv s) : Quiet (s.transfers.map Transfer.abandon) := by
  refine ⟨numbered_map sameTransfer_abandon _ hi.numbered, proper_map sameTransfer_abandon hi.proper, ?_⟩
  intro v hv
  obtain ⟨w, -, rfl⟩ := List.mem_map.mp hv
  unfold Transfer.abandon
  split
  · simp
  · assumption

/-! ### The invariant, update by update -/

/-- An idle CORE that holds nothing of an operation is sound. -/
theorem inv_of_idle (hb : s.init = s.xfer.isSome) (hp : s.phase = .idle) (hlatch : s.opl = none ∧ s.txbuf = none)
    (hscratch : s.rxbuf = none ∧ s.xstatus = none) (hq : Quiet s.transfers) : Inv s where
  lifecycle := hb
  idleClear _ := hlatch
  scratchClear := hscratch
  inProgress h := absurd hp h
  readIsGetGas h := nomatch hp.symm.trans h
  inFlight := by
    unfold InFlight
    rw [hp]
    exact hq.settled
  numbered := hq.numbered
  proper := hq.proper

/-- The reset state is sound (R39). -/
theorem inv_reset : Inv State.reset :=
  inv_of_idle rfl rfl ⟨rfl, rfl⟩ ⟨rfl, rfl⟩ ⟨trivial, nofun, nofun⟩

/-- A completion leaves a sound state (R97). -/
theorem inv_done (hb : s.init = s.xfer.isSome) (hq : Quiet s.transfers) (r : ReqPort) (p : Resp) : Inv (s.done r p) :=
  inv_of_idle hb rfl ⟨rfl, rfl⟩ ⟨rfl, rfl⟩ hq

theorem inv_resetNow (hi : Inv s) : Inv s.resetNow :=
  inv_of_idle rfl rfl ⟨rfl, rfl⟩ ⟨rfl, rfl⟩ hi.quiet_abandon

/-- An accepted command that passed its checks issues its write (R62, R70, R88). -/
theorem inv_write (hi : Inv s) (hp : s.phase = .idle) (hinit : s.init = true) (hop : reachesLink r.op = true)
    (hw : couldHaveWritten f = true) :
    Inv { (s.latch r).issue (.write f) with txbuf := some f, phase := .waitWrite } := by
  obtain ⟨hnum, hprop, hset⟩ := hi.quiet hp
  have hbound : s.xfer.isSome = true := hi.lifecycle.symm.trans hinit
  exact {
    lifecycle := hi.lifecycle
    idleClear := nofun
    scratchClear := hi.scratchClear
    inProgress := fun _ => ⟨hinit, rfl, rfl, r, rfl, hop⟩
    readIsGetGas := nofun
    inFlight := ⟨_, _, rfl, rfl, rfl, ⟨f, rfl, rfl⟩, hset⟩
    numbered := ⟨rfl, hnum⟩
    proper := List.forall_mem_cons.mpr ⟨⟨hbound, fun _ hk => XferKind.write.inj hk ▸ hw⟩, hprop⟩ }

/-- GET_GAS's answered write is followed by its read (R41, R91). -/
theorem inv_read (hi : Inv s) (hp : s.phase = .waitWrite) (hl : s.transfers = u :: older) (ho : s.opl = some r)
    (hop : r.op = opGetGas) :
    Inv { (s.sample u.tag st rx).issue .read with phase := .waitRead, xstatus := none } := by
  have hbusy : s.phase ≠ .idle := by simp [hp]
  obtain ⟨hnum, hprop, hset⟩ := hi.quiet_sample (st := st) (rx := rx) hbusy hl
  obtain ⟨hinit, hresp, htx, hlatched⟩ := hi.inProgress hbusy
  have hbound : s.xfer.isSome = true := hi.lifecycle.symm.trans hinit
  exact {
    lifecycle := hi.lifecycle
    idleClear := nofun
    scratchClear := ⟨hi.scratchClear.1, rfl⟩
    inProgress := fun _ => ⟨hinit, hresp, htx, hlatched⟩
    readIsGetGas := fun _ => ⟨r, ho, hop⟩
    inFlight := ⟨_, _, rfl, rfl, rfl, rfl, hset⟩
    numbered := ⟨rfl, hnum⟩
    proper := List.forall_mem_cons.mpr ⟨⟨hbound, nofun⟩, hprop⟩ }

/-- The pending transfer is not the abandoned one that a late answer is for, whose number is found there first. -/
theorem tag_ne_of_abandoned (hfind : s.transfer? u.tag = some u) (hab : u.outcome = .abandoned) {v : Transfer}
    {l : List Transfer} (hl : s.transfers = v :: l) (hv : v.outcome = .pending) : v.tag ≠ u.tag := by
  intro heq
  rw [State.transfer?, hl, List.find?_cons_of_pos (by simpa using heq)] at hfind
  obtain rfl := Option.some.inj hfind
  simp [hab] at hv

/-- Discarding a late answer leaves the pending transfer, if there is one, as it is (R116). -/
theorem inFlight_discard (hi : Inv s) (hfind : s.transfer? u.tag = some u) (hab : u.outcome = .abandoned) :
    InFlight (s.settle u.tag (.discarded st rx)) := by
  have hothers {l : List Transfer} (hl : ∀ v ∈ l, v.outcome ≠ .pending) :=
    settled_map_resolve (tag := u.tag) (o := .discarded st rx) nofun hl
  have hkeep {v : Transfer} {l : List Transfer} (hl : s.transfers = v :: l) (hv : v.outcome = .pending) :
      (s.settle u.tag (.discarded st rx)).transfers = v :: l.map (Transfer.resolve u.tag (.discarded st rx)) := by
    rw [settle_eq_map_resolve, hl, List.map_cons, resolve_of_ne (tag_ne_of_abandoned hfind hab hl hv)]
  have hfl := hi.inFlight
  unfold InFlight at hfl ⊢
  rw [State.settle_phase]
  cases hp : s.phase with
  | idle =>
    rw [hp] at hfl
    exact hothers hfl
  | waitWrite =>
    rw [hp] at hfl
    obtain ⟨v, l, hl, hv, hlink, hk, hset⟩ := hfl
    exact ⟨v, _, hkeep hl hv, hv, hlink, hk, hothers hset⟩
  | waitRead =>
    rw [hp] at hfl
    obtain ⟨v, l, hl, hv, hlink, hk, hset⟩ := hfl
    exact ⟨v, _, hkeep hl hv, hv, hlink, hk, hothers hset⟩

theorem inv_discard (hi : Inv s) (hfind : s.transfer? u.tag = some u) (hab : u.outcome = .abandoned) :
    Inv (s.settle u.tag (.discarded st rx)) where
  lifecycle := hi.lifecycle
  idleClear := hi.idleClear
  scratchClear := hi.scratchClear
  inProgress := hi.inProgress
  readIsGetGas := hi.readIsGetGas
  inFlight := inFlight_discard hi hfind hab
  numbered := numbered_map (sameTransfer_resolve u.tag _) _ hi.numbered
  proper := proper_map (sameTransfer_resolve u.tag _) hi.proper

/-- Every step keeps the invariant, by what a step can do from a sound state. -/
theorem inv_step (hi : Inv s) (h : step s = .next t) : Inv t := by
  have hafter (rest : List Event) : Inv (s.after rest) := hi.after rest
  cases step_next hi h with
  | waits _ ht => exact ht ▸ hi
  | completes r rest p _ hp _ ht =>
    exact ht ▸ inv_done (s := (s.after rest).latch r) hi.lifecycle (hi.quiet hp) r p
  | binds r rest l _ hp _ _ _ ht =>
    exact ht ▸ inv_done (s := ((s.after rest).latch r).bind (some l)) rfl (hi.quiet hp) r _
  | writes r rest f _ hp hop hinit hw ht => exact ht ▸ inv_write (hafter rest) hp hinit hop hw
  | reads u _ rest r _ _ hp hl _ ho hop ht => exact ht ▸ inv_read (hafter rest) hp hl ho hop
  | ends u _ st rest r _ p _ hp hl _ _ _ _ _ ht =>
    have hq := (hafter rest).quiet_sample (st := st) (rx := none) (by simp [State.after, hp]) hl
    exact ht ▸ inv_done (s := (s.after rest).sample u.tag st none) hi.lifecycle hq r p
  | extracts u _ st g rest r p _ hp hl _ _ _ _ ht =>
    have hq := (hafter rest).quiet_sample (st := st) (rx := some g) (by simp [State.after, hp]) hl
    exact ht ▸ inv_done (s := (s.after rest).sample u.tag st (some g)) hi.lifecycle hq r p
  | discards u _ _ rest _ _ hab hfind _ ht => exact ht ▸ inv_discard (hafter rest) hfind hab
  | hostReads _ rest _ _ ht => exact ht ▸ hafter rest
  | resets rest _ ht => exact ht ▸ inv_resetNow (hafter rest)

/-! ### A check that fails, and checks that pass (R101, R102) -/

theorem checked_of_failure {sf pf : Option ResultCode} {out : Resp} {p : Result} {e : ResultCode}
    (h : firstFailure s.cfg.guardOrder sf pf = some e) : checked sf pf out s p = complete e out s := by
  simp [checked, h]

theorem checked_of_pass {sf pf : Option ResultCode} {out : Resp} {p : Result}
    (h : firstFailure s.cfg.guardOrder sf pf = none) : checked sf pf out s p = p := by
  simp [checked, h]

/-! ### What an instruction can do, in any state -/

/-- Everything an instruction can do to a state when it answers a next one (R26, R88, R90, R97, R122). -/
inductive Effect (s : State) : State → Prop
  /-- CORE waits for LINK -/
  | waits : Effect s s
  /-- an operation completes -/
  | completes (r : ReqPort) (p : Resp) : Effect s (s.done r p)
  /-- INIT binds and completes -/
  | binds (l : XferRef) (r : ReqPort) (p : Resp) : Effect s ((s.bind (some l)).done r p)
  /-- a write is issued -/
  | writes (f : Frame) : Effect s (writing s f)
  /-- GET_GAS's read is issued -/
  | reads : Effect s (reading s)

theorem effect_of_complete {out : Resp} (h : complete st out s = .next t) : Effect s t := by
  obtain ⟨r, -, rfl⟩ := complete_next.mp h
  exact .completes r _

theorem effect_of_afterWrite (h : afterWrite st s = .next t) : Effect s t := by
  obtain ⟨r, -, ⟨-, -, h⟩ | ⟨-, -, h⟩ | ⟨-, h⟩⟩ := afterWrite_next.mp h
  · obtain rfl := doRead_next.mp h
    exact .reads
  · exact effect_of_complete h
  · exact effect_of_complete h

/-- RXBUF is cleared by the completion that follows it (R88). -/
theorem effect_of_afterRead {g : Frame} (h : afterRead st g s = .next t) : Effect s t := by
  obtain ⟨-, h⟩ | ⟨-, -, h⟩ | ⟨-, -, h⟩ := afterRead_next.mp h
  · exact effect_of_complete h
  · obtain ⟨r, -, rfl⟩ := complete_next.mp h
    exact .completes r _
  · obtain ⟨r, -, rfl⟩ := complete_next.mp h
    exact .completes r _

theorem effect_of_exec {i : Instr} (h : exec i s = .next t) : Effect s t := by
  cases hi : i.isRequest with
  | true =>
    obtain ⟨-, ⟨st, out, -, h⟩ | ⟨l, -, -, h⟩ | ⟨f, -, -, -, h⟩⟩ := exec_request_next hi h
    · exact effect_of_complete h
    · obtain ⟨r, -, rfl⟩ := complete_next.mp h
      exact .binds l r _
    · obtain rfl := doWrite_next.mp h
      exact .writes f
  | false =>
    obtain ⟨f, hf⟩ | ⟨g, hg⟩ := exec_frame hi
    · obtain ⟨-, -, ⟨-, rfl⟩ | ⟨st, -, -, h⟩⟩ := finishWrite_next.mp (hf s ▸ h)
      · exact .waits
      · exact effect_of_afterWrite h
    · obtain ⟨-, ⟨-, rfl⟩ | ⟨st, -, -, h⟩⟩ := finishRead_next.mp (hg s ▸ h)
      · exact .waits
      · exact effect_of_afterRead h

theorem effect_of_runWord {w : PortWord} (h : runWord w s = .next t) : Effect s t := by
  unfold runWord at h
  split at h
  · exact effect_of_exec h
  · nomatch h

/-! ### INIT and XFER in any state -/

/-- INIT is 1 exactly when a transfer function is bound (R25). -/
def State.bound (s : State) : Prop := s.init = s.xfer.isSome

/-- INIT writes both elements, every other instruction neither (R25, R90, R97). -/
theorem Effect.bound (h : Effect s t) (hb : s.bound) : t.bound := by
  cases h with
  | waits | completes _ _ | writes _ | reads => exact hb
  | binds _ _ _ => rfl

theorem bound_of_takeEvent {e : Event} (hb : s.bound) (h : takeEvent e s = .next t) : t.bound := by
  cases e with
  | request r => exact (effect_of_runWord (s := s.latch r) (w := .request r) h).bound hb
  | answer tag st rx =>
    rw [takeEvent] at h
    split at h
    · exact (effect_of_runWord (s := s.sample tag st rx) h).bound hb
    · obtain ⟨u, -, -, -, -, rfl⟩ := lateAnswer_next.mp h
      exact hb
  | hostRead field =>
    obtain ⟨-, rfl⟩ := hostReads_next.mp h
    exact hb
  | reset =>
    obtain rfl := Host.Outcome.next.inj h
    rfl

theorem bound_of_step (hb : s.bound) (h : step s = .next t) : t.bound := by
  cases hin : s.inbox with
  | nil =>
    rw [step_nil hin] at h
    exact Host.Outcome.next.inj h ▸ hb
  | cons e rest =>
    rw [step_cons hin] at h
    exact bound_of_takeEvent (s := s.after rest) hb h

/-! ### Two states with different records -/

/-- `s` with other inputs to come and another record of the ports; CORE's own elements and outputs are those of `s`. -/
def State.withRecord (inbox : List Event) (transfers : List Transfer) (exchanges : List Exchange) (s : State) : State :=
  { s with inbox := inbox, transfers := transfers, exchanges := exchanges }

@[simp] theorem State.withRecord_cfg (inbox : List Event) (transfers : List Transfer) (exchanges : List Exchange)
    (s : State) : (s.withRecord inbox transfers exchanges).cfg = s.cfg := rfl

/-- Two meanings answer next states that differ in the inputs to come and the record alone. -/
def Alike (a b : Result) : Prop :=
  ∃ t inbox transfers exchanges, a = .next t ∧ b = .next (t.withRecord inbox transfers exchanges)

section

variable {inbox : List Event} {transfers : List Transfer} {exchanges : List Exchange}

theorem alike_complete {out : Resp} (ho : s.opl = some r) :
    Alike (complete st out s) (complete st out (s.withRecord inbox transfers exchanges)) :=
  ⟨s.done r { out with status := some st }, inbox, transfers, ⟨r, { out with status := some st }⟩ :: exchanges,
    complete_of_latched ho, complete_of_latched ho⟩

theorem alike_doWrite (f : Frame) : Alike (doWrite f s) (doWrite f (s.withRecord inbox transfers exchanges)) :=
  ⟨_, inbox, ⟨transfers.length, s.xfer, .write f, .pending⟩ :: transfers, exchanges, rfl, rfl⟩

theorem alike_checked {sf pf : Option ResultCode} {out : Resp} {a b : Result} (ho : s.opl = some r) (hab : Alike a b) :
    Alike (checked sf pf out s a) (checked sf pf out (s.withRecord inbox transfers exchanges) b) := by
  cases hf : firstFailure s.cfg.guardOrder sf pf with
  | none => rwa [checked_of_pass hf, checked_of_pass (s := s.withRecord inbox transfers exchanges) hf]
  | some e =>
    rw [checked_of_failure hf, checked_of_failure (s := s.withRecord inbox transfers exchanges) hf]
    exact alike_complete ho

/-- No request of an idle CORE reads the record of the ports (R37, R123). -/
theorem alike_exec_request {i : Instr} (hi : i.isRequest = true) (hp : s.phase = .idle) (ho : s.opl = some r) :
    Alike (exec i s) (exec i (s.withRecord inbox transfers exchanges)) := by
  have idle {a b : Result} (h : Alike a b) :
      Alike (whenIdle s a) (whenIdle (s.withRecord inbox transfers exchanges) b) := by
    rwa [whenIdle_of_idle hp, whenIdle_of_idle (s := s.withRecord inbox transfers exchanges) hp]
  cases i with
  | init x => exact idle (alike_checked ho (alike_complete (s := s.bind x) ho))
  | getGas _ | calZero | calSpan _ | setAbc _ | setRange _ | send _ _ _ _ =>
    exact idle (alike_checked ho (alike_doWrite _))
  | build k pp n p =>
    refine idle ?_
    rw [State.withRecord_cfg]
    cases encoderGuard s.cfg.acceptRange k pp n with
    | none => exact alike_complete ho
    | some e => exact alike_complete ho
  | cksum _ | validate _ | parse _ | reserved7 | reservedC | reservedD | reservedE | reservedF =>
    exact idle (alike_complete ho)
  | frameRequest _ _ _ | frameGetGas | frameCalZero | frameCalSpan _ _ | frameSetAbc _ _ | frameSetRange _ _
  | frameResponse _ => nomatch hi

end

/-- Two sound idle states that agree on INIT, XFER and the parameters are the same CORE once a request is latched. -/
theorem latch_eq_withRecord {s' : State} (hi : Inv s) (hi' : Inv s') (hp : s.phase = .idle) (hp' : s'.phase = .idle)
    (hinit : s.init = s'.init) (hx : s.xfer = s'.xfer) (hcfg : s.cfg = s'.cfg) (r : ReqPort) :
    s'.latch r = (s.latch r).withRecord s'.inbox s'.transfers s'.exchanges := by
  obtain ⟨-, htx⟩ := hi.idleClear hp
  obtain ⟨-, htx'⟩ := hi'.idleClear hp'
  obtain ⟨hrx, hxs⟩ := hi.scratchClear
  obtain ⟨hrx', hxs'⟩ := hi'.scratchClear
  simp only [State.latch, State.withRecord, hinit, hx, hp, hp', htx, htx', hrx, hrx', hxs, hxs', hcfg]

end Sys2Proof.Machine

/-! ### The obligations of the state family -/

namespace Sys2Proof.Proofs

open Machine Claims

/-- Settles O39: each case of what a step can do is an update that keeps the invariant. -/
theorem everyStepKeepsTheInvariant : Obligations.EveryStepKeepsTheInvariant := fun _ _ => inv_step

/-- Settles O3: the decoder's arm of an op-select reads the fields of its format and no other. -/
theorem requestReadsOnlyTheFieldsOfItsFormat : Obligations.RequestReadsOnlyTheFieldsOfItsFormat := by
  intro a b hop hx hpresent hspan habc hrange hcommand hframe
  refine congrArg Except.ok ?_
  unfold decodeRequest
  rw [← hop]
  split <;> simp_all

/-- Settles O40: no instruction but a binding INIT writes INIT or XFER, and it writes both. -/
theorem initializedExactlyWhenBound : Obligations.InitializedExactlyWhenBound :=
  ⟨rfl, fun _ _ => bound_of_step⟩

/-- Settles O42: of the cases of a step only the binding INIT and the reset write INIT or XFER. -/
theorem onlyInitAndResetChangeTheLifecycle : Obligations.OnlyInitAndResetChangeTheLifecycle := by
  intro s t hi h hchange
  have unchanged (hinit : t.init = s.init) (hx : t.xfer = s.xfer) : False := hchange.elim (· hinit) (· hx)
  cases step_next hi h with
  | resets rest hin ht => exact .inl ⟨rest, hin, ht ▸ ⟨rfl, rfl⟩⟩
  | binds r rest l hin _ hop hx hf ht => exact .inr ⟨r, rest, l, hin, hop, hx, hf, ht ▸ ⟨rfl, rfl, rfl⟩⟩
  | waits _ ht | completes _ _ _ _ _ _ ht | writes _ _ _ _ _ _ _ _ ht | reads _ _ _ _ _ _ _ _ _ _ _ ht
  | ends _ _ _ _ _ _ _ _ _ _ _ _ _ _ _ ht | extracts _ _ _ _ _ _ _ _ _ _ _ _ _ _ ht
  | discards _ _ _ _ _ _ _ _ _ ht | hostReads _ _ _ _ ht =>
    subst ht
    exact (unchanged rfl rfl).elim

/-- Settles O46: each case of a step that changes PHASE is one of the transitions of R26, or the reset. -/
theorem phaseMovesAsTheSequencerSays : Obligations.PhaseMovesAsTheSequencerSays := by
  intro s t hi h hchange
  cases step_next hi h with
  | resets rest hin ht => exact .inl ⟨rest, hin, ht ▸ rfl⟩
  | writes r rest _ hin hp _ _ _ ht => exact .inr (.inl ⟨r, rest, hin, hp, ht ▸ rfl⟩)
  | reads u _ rest r _ hin hp _ _ ho hop ht =>
    exact .inr (.inr (.inl ⟨u.tag, _, rest, hin, hp, .inl ⟨ht ▸ rfl, rfl, r, ho, hop⟩⟩))
  | ends u _ st rest r _ _ hin hp _ _ ho hop _ _ ht =>
    exact .inr (.inr (.inl ⟨u.tag, st, rest, hin, hp, .inr ⟨ht ▸ rfl, hop.imp_right fun hne => ⟨r, ho, hne⟩⟩⟩))
  | extracts u _ st g rest _ _ hin hp _ _ _ _ _ ht => exact .inr (.inr (.inr ⟨u.tag, st, g, rest, hin, hp, ht ▸ rfl⟩))
  | completes _ _ _ _ hp _ ht | binds _ _ _ _ hp _ _ _ ht =>
    subst ht
    exact absurd hp.symm hchange
  | waits _ ht | discards _ _ _ _ _ _ _ _ _ ht | hostReads _ _ _ _ ht =>
    subst ht
    exact absurd rfl hchange

/-- Settles O48: once the request is latched the two states differ in the record of the ports alone, which no request
reads. -/
theorem noOperationReadsWhatAnotherLeft : Obligations.NoOperationReadsWhatAnotherLeft := by
  intro s s' r rest rest' hi hi' hp hp' hinit hx hcfg hin hin'
  have hlatched := latch_eq_withRecord (hi.after rest) (hi'.after rest') hp hp' hinit hx hcfg r
  obtain ⟨t, inbox, transfers, exchanges, ht, ht'⟩ :=
    alike_exec_request (s := (s.after rest).latch r) (inbox := rest') (transfers := s'.transfers)
      (exchanges := s'.exchanges) (decodeRequest_isRequest r) hp rfl
  refine ⟨t, t.withRecord inbox transfers exchanges, (step_cons hin).trans ht, (step_cons hin').trans ?_,
    rfl, rfl, rfl, rfl, rfl, rfl, rfl, rfl, rfl⟩
  exact (congrArg (exec (decodeRequest r)) hlatched).trans ht'

/-- Settles O16, by the lifecycle and the binding: which check fails, and what R102 reports when both do. -/
theorem initBindsOnceAndOnlyAPresentFunction : Obligations.InitBindsOnceAndOnlyAPresentFunction := by
  intro s r x hp ho
  have hexec : exec (.init x) s =
      checked (mustBeUninitialized s) (paramCheck x.isSome) {} s (complete .success {} (s.bind x)) :=
    whenIdle_of_idle hp
  rw [hexec]
  cases hinit : s.init <;> cases x
  case false.none =>
    rw [checked_of_failure (e := .badParameter) (by simp [mustBeUninitialized, hinit, paramCheck, firstFailure])]
    exact complete_of_latched ho
  case false.some l =>
    rw [checked_of_pass (by simp [hinit])]
    exact complete_of_latched (s := s.bind (some l)) ho
  case true.none =>
    rw [checked_of_failure (e := pickFailure s.cfg.guardOrder .alreadyInitialized .badParameter)
      (by simp [mustBeUninitialized, hinit, paramCheck, firstFailure]), complete_of_latched ho]
    cases s.cfg.guardOrder <;> rfl
  case true.some l =>
    rw [checked_of_failure (e := .alreadyInitialized) (by simp [mustBeUninitialized, hinit, paramCheck, firstFailure])]
    exact complete_of_latched ho

/-- Settles O32: the answer completes the word of its pending transfer, which decodes to the instruction. -/
theorem stepRunsTheAnsweredFrame : Obligations.StepRunsTheAnsweredFrame := by
  intro s tag st rx rest u i hin hfind hpend hframe
  have hword : ∃ w, (s.after rest).answerWord tag rx = some w ∧ decode w = .ok i := by
    obtain ⟨f, hk, hrx, hdec⟩ | ⟨g, hk, hrx, hdec⟩ := hframe
    · exact ⟨_, answerWord_eq_some.mpr ⟨u, hfind, hpend, .inl ⟨f, hk, hrx, rfl⟩⟩, hdec⟩
    · exact ⟨_, answerWord_eq_some.mpr ⟨u, hfind, hpend, .inr ⟨g, hk, hrx, rfl⟩⟩, hdec⟩
  obtain ⟨w, hw, hdec⟩ := hword
  rw [step_cons hin]
  change takeEvent _ (s.after rest) = _
  simp only [takeEvent, hw, runWord, hdec]
  rfl

/-- Settles O33: HOST's read tests the field it names. -/
theorem hostReadOfAnUndrivenFieldFaults : Obligations.HostReadOfAnUndrivenFieldFaults := by
  intro s field rest hin
  rw [step_cons hin]
  cases field <;> rfl

/-- Settles O34: R39's values, at reset and after a reset of any state. -/
theorem resetGivesEveryElementItsValue : Obligations.ResetGivesEveryElementItsValue := by
  have hvalues : AtReset State.reset := ⟨rfl, rfl, rfl, rfl, rfl, rfl, rfl, rfl, rfl, rfl⟩
  exact ⟨hvalues, fun s rest hin => ⟨(s.after rest).resetNow, step_cons hin, hvalues, rfl⟩⟩

/-- Settles O38: the reset state is idle and holds nothing. -/
theorem resetStateMeetsTheInvariant : Obligations.ResetStateMeetsTheInvariant := inv_reset

end Sys2Proof.Proofs

/-! ## The memory family (20_memory.md): the link trace -/

namespace Sys2Proof.Machine

open Claims

variable {s t : State} {st : ResultCode} {rx : Option Frame} {u : Transfer} {older l : List Transfer}

/-! ### Transfer numbers -/

/-- Newest first, the numbers count down to 0 (R49). -/
theorem Numbered.map_tag : ∀ {l : List Transfer}, Numbered l → l.map Transfer.tag = (List.range l.length).reverse
  | [], _ => rfl
  | v :: l, ⟨hv, hl⟩ => by simp [hv, hl.map_tag, List.range_succ]

/-- No two entries of the trace have one number. -/
theorem Numbered.eq_of_tag_eq (hn : Numbered l) {v w : Transfer} (hv : v ∈ l) (hw : w ∈ l) (h : v.tag = w.tag) :
    v = w := by
  have hnodup : (l.map Transfer.tag).Nodup := by
    rw [hn.map_tag]
    exact List.nodup_reverse.mpr List.nodup_range
  exact List.inj_on_of_nodup_map hnodup hv hw h

/-- The transfer a busy CORE waits for is pending (R32). -/
theorem Inv.newest_pending (hi : Inv s) (hp : s.phase ≠ .idle) (hl : s.transfers = u :: older) :
    u.outcome = .pending := by
  have hfl := hi.inFlight
  unfold InFlight at hfl
  split at hfl
  · contradiction
  · obtain ⟨v, _, hvl, hv, -⟩ := hfl
    obtain ⟨rfl, -⟩ := List.cons.inj (hl.symm.trans hvl)
    exact hv
  · obtain ⟨v, _, hvl, hv, -⟩ := hfl
    obtain ⟨rfl, -⟩ := List.cons.inj (hl.symm.trans hvl)
    exact hv

/-! ### How the entries of the trace go on (R49, R116) -/

theorem continues_refl (v : Transfer) : Continues v v := ⟨rfl, rfl, rfl, .inl rfl⟩

theorem continues_abandon (v : Transfer) : Continues v v.abandon := by
  unfold Transfer.abandon
  split
  · next h => exact ⟨rfl, rfl, rfl, .inr (.inl ⟨h, .inl rfl⟩)⟩
  · exact continues_refl v

/-- Every entry of a trace goes on when each does under one change made in place. -/
theorem forall₂_continues_map {g : Transfer → Transfer} (h : ∀ v ∈ l, Continues v (g v)) :
    List.Forall₂ Continues l (l.map g) :=
  List.forall₂_map_right_iff.mpr (List.forall₂_same.mpr h)

theorem forall₂_continues_refl (l : List Transfer) : List.Forall₂ Continues l l :=
  List.forall₂_same.mpr fun v _ => continues_refl v

/-- A new outcome for one transfer reaches the one entry of that number and no other. -/
theorem forall₂_continues_settle {o : TransferOutcome} (hn : Numbered s.transfers) (hu : u ∈ s.transfers)
    (h : Continues u { u with outcome := o }) :
    List.Forall₂ Continues s.transfers (s.settle u.tag o).transfers := by
  refine forall₂_continues_map fun v hv => ?_
  split
  · next htag => exact hn.eq_of_tag_eq hv hu htag ▸ h
  · exact continues_refl v

/-- LINK's answer to the transfer CORE waits for turns that entry from pending to answered. -/
theorem Inv.forall₂_continues_sample (hi : Inv s) (hp : s.phase ≠ .idle) (hl : s.transfers = u :: older)
    (rest : List Event) : List.Forall₂ Continues s.transfers ((s.after rest).sample u.tag st rx).transfers :=
  forall₂_continues_settle (s := s.after rest) hi.numbered (hl ▸ List.mem_cons_self)
    ⟨rfl, rfl, rfl, .inr (.inl ⟨hi.newest_pending hp hl, .inr ⟨st, rx, rfl⟩⟩)⟩

/-- A late answer turns the abandoned entry to discarded (R116). -/
theorem Inv.forall₂_continues_discard (hi : Inv s) (hu : u ∈ s.transfers) (hab : u.outcome = .abandoned) :
    List.Forall₂ Continues s.transfers (s.settle u.tag (.discarded st rx)).transfers :=
  forall₂_continues_settle hi.numbered hu ⟨rfl, rfl, rfl, .inr (.inr ⟨hab, st, rx, rfl⟩)⟩

end Sys2Proof.Machine

/-! ### The obligations of the memory family -/

namespace Sys2Proof.Proofs

open Machine Claims

/-- Settles O44: of the cases of a step only `writes` and `reads` add an entry, and what the others do to the trace is an
answer, a discarded late answer, a reset, or nothing. -/
theorem linkTraceNeverDropsOrReplays : Obligations.LinkTraceNeverDropsOrReplays := by
  intro s t hi h
  cases step_next hi h with
  | writes r rest f hin hp _ _ _ ht =>
    subst ht
    exact ⟨[_], s.transfers, rfl, forall₂_continues_refl _,
      .inr ⟨_, rfl, .inl ⟨r, rest, f, hin, hp, rfl, rfl, rfl⟩⟩⟩
  | reads u _ rest r _ hin hp hl _ ho hop ht =>
    subst ht
    have hlength : ((s.after rest).sample u.tag .success none).transfers.length = s.transfers.length := List.length_map _
    refine ⟨[_], _, rfl, hi.forall₂_continues_sample (by simp [hp]) hl rest, .inr ⟨.read, ?_, ?_⟩⟩
    · rw [hlength]
      rfl
    · exact .inr ⟨u.tag, rest, r, hin, hp, ho, hop, rfl, rfl⟩
  | ends u _ st rest _ _ _ _ hp hl _ _ _ _ _ ht =>
    exact ⟨[], _, congrArg State.transfers ht, hi.forall₂_continues_sample (by simp [hp]) hl rest, .inl rfl⟩
  | extracts u _ st g rest _ _ _ hp hl _ _ _ _ ht =>
    exact ⟨[], _, congrArg State.transfers ht, hi.forall₂_continues_sample (by simp [hp]) hl rest, .inl rfl⟩
  | discards u st rx rest _ hm hab _ _ ht =>
    exact ⟨[], _, congrArg State.transfers ht, (hi.after rest).forall₂_continues_discard hm hab, .inl rfl⟩
  | resets rest _ ht =>
    exact ⟨[], _, congrArg State.transfers ht, forall₂_continues_map fun v _ => continues_abandon v, .inl rfl⟩
  | waits _ ht | completes _ _ _ _ _ _ ht | binds _ _ _ _ _ _ _ _ ht | hostReads _ _ _ _ ht =>
    exact ⟨[], s.transfers, ht ▸ rfl, forall₂_continues_refl _, .inl rfl⟩

/-- Settles O45: a request completes, as any operation or as a binding INIT, or issues its write; the other cases of a step
take another input. -/
theorem rejectedRequestIssuesNoTransfer : Obligations.RejectedRequestIssuesNoTransfer := by
  intro s t r rest hi hin h
  cases step_next hi h with
  | completes _ _ _ _ _ _ ht | binds _ _ _ _ _ _ _ _ ht => exact .inl (ht ▸ ⟨rfl, rfl, _, rfl⟩)
  | writes _ _ f _ _ _ _ _ ht => exact .inr (ht ▸ ⟨rfl, rfl, f, rfl⟩)
  | waits hin' _ | reads _ _ _ _ _ hin' _ _ _ _ _ _ | ends _ _ _ _ _ _ _ hin' _ _ _ _ _ _ _ _
  | extracts _ _ _ _ _ _ _ hin' _ _ _ _ _ _ _ | discards _ _ _ _ hin' _ _ _ _ _ | hostReads _ _ hin' _ _
  | resets _ hin' _ => nomatch hin.symm.trans hin'

/-- Settles O47, from what a step can add to the link trace (O44): a longer trace has one new entry, and when that is a read
it is GET_GAS's. -/
theorem onlyGetGasReadsTheLink : Obligations.OnlyGetGasReadsTheLink := by
  intro s t u hi h hlonger hhead hread
  obtain ⟨new, old, ht, hold, hnew⟩ := linkTraceNeverDropsOrReplays s t hi h
  obtain rfl | ⟨kind, rfl, hcause⟩ := hnew
  · have hlength := hold.length_eq
    simp [ht, hlength] at hlonger
  · obtain rfl := Option.some.inj ((congrArg List.head? ht).symm.trans hhead)
    obtain ⟨_, _, f, _, _, _, _, rfl⟩ | ⟨tag, rest, r, hin, hp, ho, hop, _, _⟩ := hcause
    · nomatch hread
    · exact ⟨tag, rest, r, hin, hp, ho, hop⟩

end Sys2Proof.Proofs

/-! ## The encoding family (30_encoding.md): the decoder, the operand bytes, and the requests that need no transfer -/

namespace Sys2Proof.Machine

open Claims

variable {s : State} {r : ReqPort} {f : Frame}

/-! ### The decoder on the frames of the table (R57, R60) -/

theorem requestFrame_inj {k k' : Byte} {p p' : Payload} {c c' : Byte} :
    requestFrame k p c = requestFrame k' p' c' ↔ k = k' ∧ p = p' ∧ c = c' := by
  obtain ⟨p0, p1, p2, p3, p4⟩ := p
  obtain ⟨q0, q1, q2, q3, q4⟩ := p'
  simp [requestFrame, and_assoc]

theorem decodeWrite_calSpanFrame (v : BitVec 16) (c : Byte) :
    decodeWrite (calSpanFrame v c) = .ok (.frameCalSpan v c) := by
  simp only [decodeWrite, calSpanFrame, getGasFrame, calZeroFrame, requestFrame_inj]
  simp [requestFrame, spanPayload, cmdSpan, cmdGas, cmdZero]

theorem decodeWrite_setAbcFrame (a c : Byte) : decodeWrite (setAbcFrame a c) = .ok (.frameSetAbc a c) := by
  simp only [decodeWrite, setAbcFrame, getGasFrame, calZeroFrame, requestFrame_inj]
  simp [requestFrame, abcPayload, cmdAbc, cmdSpan, cmdGas, cmdZero]

theorem decodeWrite_setRangeFrame (v : BitVec 32) (c : Byte) :
    decodeWrite (setRangeFrame v c) = .ok (.frameSetRange v c) := by
  have hzero : (rangePayload v).p0 = 0 := rfl
  simp only [decodeWrite, setRangeFrame, getGasFrame, calZeroFrame, requestFrame_inj]
  simp [requestFrame, hzero, rangeBytes_append, cmdRange, cmdAbc, cmdSpan, cmdGas, cmdZero]

/-- A frame spells FRAME.REQUEST exactly when no narrower row of the table spells it (R57; log entry 5). -/
theorem decodeWrite_requestFrame_iff (k : Byte) (p : Payload) (c : Byte) :
    decodeWrite (requestFrame k p c) = .ok (.frameRequest k p c) ↔ narrowerRow k p c = false := by
  unfold decodeWrite
  simp only [getGasFrame, calZeroFrame, requestFrame_inj]
  split_ifs <;> simp_all [requestFrame, narrowerRow]

/-- The row an outbound frame decodes to is well formed when CORE could have written the frame (R70). -/
theorem wellFormed_of_decodeWrite {i : Instr} (h : decodeWrite f = .ok i) (hf : couldHaveWritten f = true) :
    i.wellFormed = true := by
  have hword := encode_of_decodeWrite h
  cases i with
  | frameRequest k p c =>
    obtain rfl := PortWord.linkWrite.inj hword
    have hnarrow := (decodeWrite_requestFrame_iff k p c).mp h
    simp [Instr.wellFormed, hf, hnarrow]
  | frameCalSpan _ _ | frameSetAbc _ _ | frameSetRange _ _ =>
    obtain rfl := PortWord.linkWrite.inj hword
    exact hf
  | frameGetGas | frameCalZero => rfl
  | frameResponse _ | init _ | getGas _ | calZero | calSpan _ | setAbc _ | setRange _ | send _ _ _ _ | cksum _
  | validate _ | build _ _ _ _ | parse _ | reserved7 | reservedC | reservedD | reservedE | reservedF => nomatch hword

/-- The codes of R59 as numbers. -/
theorem knownCommand_iff (k : Byte) : knownCommand k = true ↔ k.toNat ∈ [0x86, 0x87, 0x88, 0x79, 0x99] := by
  simp [knownCommand, accepted, cmdGas, cmdZero, cmdSpan, cmdAbc, cmdRange, ← BitVec.toNat_inj, or_assoc]

/-- R70 with numbers: which frames CORE could have written. -/
theorem couldHaveWritten_iff (f : Frame) :
    couldHaveWritten f = true ↔ f.b0.toNat = 0xFF ∧ f.b1.toNat = 0x01 ∧
      f.b2.toNat ∈ [0x86, 0x87, 0x88, 0x79, 0x99] ∧ sum8 f % 256 = 0 := by
  have hstart : f.b0 = startMarker ↔ f.b0.toNat = 0xFF := BitVec.toNat_inj.symm
  have hdevice : f.b1 = deviceByte ↔ f.b1.toNat = 0x01 := BitVec.toNat_inj.symm
  simp only [couldHaveWritten, Bool.and_eq_true, beq_iff_eq, hstart, hdevice, knownCommand_iff,
    b8_eq_cksum_iff, and_assoc]

/-! ### Operand bytes with numbers (R14, R68) -/

theorem toNat_extractByte {n : Nat} (v : BitVec n) (k : Nat) :
    (v.extractLsb' k 8).toNat = v.toNat / 2 ^ k % 256 := by
  rw [extractByte_eq_ofNat, BitVec.toNat_ofNat]

/-- The topmost byte of a word needs no reduction. -/
theorem toNat_extractByte_top {k : Nat} (v : BitVec (8 + k)) : (v.extractLsb' k 8).toNat = v.toNat / 2 ^ k := by
  have hlt : v.toNat < 256 * 2 ^ k := (Nat.pow_add 2 8 k) ▸ v.isLt
  rw [toNat_extractByte, Nat.mod_eq_of_lt (Nat.div_lt_of_lt_mul (Nat.mul_comm .. ▸ hlt))]

theorem toNat_extractByte_bottom {n : Nat} (v : BitVec n) : (v.extractLsb' 0 8).toNat = v.toNat % 256 := by
  rw [toNat_extractByte, Nat.pow_zero, Nat.div_one]

theorem frame_get_ofBits (F : BitVec 72) (i : Fin 9) : (Frame.ofBits F).get i = F.extractLsb' (64 - 8 * i.val) 8 := by
  fin_cases i <;> rfl

theorem payload_ofBits_eq (P : BitVec 40) : Payload.ofBits P = payloadOf P := by
  simp [Payload.ofBits, payloadOf, extractByte_eq_ofNat]

theorem frame_ofBits_eq (F : BitVec 72) : Frame.ofBits F = frameOf F := by
  simp [Frame.ofBits, frameOf, extractByte_eq_ofNat]

/-- The concentration is byte 2 times 256 plus byte 3, which no 16-bit word cuts (R68, R75). -/
theorem toNat_ppmOf (f : Frame) : (ppmOf f).toNat = f.b2.toNat * 256 + f.b3.toNat := by
  have hhi := f.b2.isLt
  have hlo := f.b3.isLt
  rw [ppmOf_eq_ofNat, BitVec.toNat_ofNat]
  omega

/-- The concentration in a request's frame is its bits 55 to 40 (R68, R75). -/
theorem ppmOf_frameOf (F : BitVec 72) : ppmOf (frameOf F) = BitVec.ofNat 16 (F.toNat / 2 ^ 40) := by
  apply BitVec.eq_of_toNat_eq
  simp only [toNat_ppmOf, frameOf, BitVec.toNat_ofNat]
  omega

/-! ### The checksum and the encoder with numbers (R72, R76, R77) -/

theorem cksum_eq_ofNat (f : Frame) : cksum f = BitVec.ofNat 8 (256 - sum7 f % 256) := by
  have hsum : (bodySum f).toNat = sum7 f % 256 := by simp [bodySum, sum7, BitVec.toNat_add]
  rw [cksum_eq_neg]
  apply BitVec.eq_of_toNat_eq
  rw [BitVec.toNat_neg, BitVec.toNat_ofNat, hsum]

theorem sealFrame_eq_commandFrame (k a b c d e z : Byte) :
    sealFrame ⟨startMarker, deviceByte, k, a, b, c, d, e, z⟩ = commandFrame k a b c d e := by
  simp [sealFrame, commandFrame, cksum_eq_ofNat, sum7, startMarker, deviceByte]

theorem assemble_eq_payloadFrame (k : Byte) (p : Payload) (n : Nat) : assemble k p n = payloadFrame k p n :=
  sealFrame_eq_commandFrame ..

theorem accepted_eq_codeAccepted (acceptRange : Bool) (k : Byte) :
    accepted acceptRange k = codeAccepted acceptRange k := by
  rw [Bool.eq_iff_iff]
  simp [accepted, codeAccepted, cmdGas, cmdZero, cmdSpan, cmdAbc, cmdRange, ← BitVec.toNat_inj]

/-- The guard of R77 is a parameter check: of the three checks together. -/
theorem encoderGuard_eq_paramCheck (acceptRange : Bool) (k : Byte) (pp : Bool) (n : Byte) :
    encoderGuard acceptRange k pp n = paramCheck (sendable acceptRange k pp n) := by
  have hsize : n ≠ 0 ↔ 0 < n.toNat := by
    rw [Nat.pos_iff_ne_zero, ne_eq, ne_eq, ← BitVec.toNat_inj]
    rfl
  have hpass : encoderGuard acceptRange k pp n = none ↔ sendable acceptRange k pp n = true := by
    rw [encoderGuard_eq_none, accepted_eq_codeAccepted, hsize]
    cases pp <;> simp [sendable, and_assoc]
  cases hg : encoderGuard acceptRange k pp n with
  | none => rw [hpass.mp hg, paramCheck, if_pos rfl]
  | some e =>
    have hfail : sendable acceptRange k pp n ≠ true := fun h => nomatch hg.symm.trans (hpass.mpr h)
    rw [encoderGuard_eq_some hg, paramCheck, if_neg hfail]

/-- The frame SET_RANGE writes, if its selector has one (R61, R95). -/
theorem rangeFrame_eq (q : Byte) :
    rangeFrame q = (rangeValue q).map fun v => assemble cmdRange (rangePayload v) 5 := by
  have h0 : q.toNat = 0 ↔ q = 0 := BitVec.toNat_inj (y := 0)
  have h1 : q.toNat = 1 ↔ q = 1 := BitVec.toNat_inj (y := 1)
  have h2 : q.toNat = 2 ↔ q = 2 := BitVec.toNat_inj (y := 2)
  simp only [rangeFrame, rangeValue, h0, h1, h2]
  split_ifs <;> decide

/-! ### The requests of an idle CORE -/

/-- A completion with the request latched, as the statements say it (R97). -/
theorem complete_eq_finished {st : ResultCode} {out : Resp} (ho : s.opl = some r) :
    complete st out s = .next (finished s r { out with status := some st }) := complete_of_latched ho

/-- Which failure an operation that needs INIT reports, if any (R101, R102). -/
theorem firstFailure_initialized (order : GuardOrder) (ok : Bool) :
    firstFailure order (mustBeInitialized s) (paramCheck ok) =
      if s.init = true ∧ ok = true then none else some (reportedFailure order s.init ok) := by
  unfold mustBeInitialized
  cases s.init <;> cases ok <;> cases order <;> rfl

/-- An operation that needs INIT writes its frame when both checks pass; otherwise it reports the failure R102 selects
(R87, R100). -/
theorem checked_write {ok : Bool} {out : Resp} (ho : s.opl = some r) :
    checked (mustBeInitialized s) (paramCheck ok) out s (doWrite f s) = .next
      (if s.init = true ∧ ok = true then writing s f
      else finished s r { out with status := some (reportedFailure s.cfg.guardOrder s.init ok) }) := by
  have hfirst := firstFailure_initialized (s := s) s.cfg.guardOrder ok
  by_cases h : s.init = true ∧ ok = true
  · rw [if_pos h] at hfirst ⊢
    exact checked_of_pass hfirst
  · rw [if_neg h] at hfirst ⊢
    rw [checked_of_failure hfirst, complete_eq_finished ho]

section Idle

variable (hp : s.phase = .idle) (ho : s.opl = some r)
include hp ho

theorem exec_init_of_idle (x : Option XferRef) :
    exec (.init x) s = .next
      (match s.init, x with
      | false, some l => finished { s with init := true, xfer := some l } r { status := some .success }
      | i, x => finished s r { status := some (initFailure s.cfg.guardOrder i x.isSome) }) := by
  rw [Proofs.initBindsOnceAndOnlyAPresentFunction s r x hp ho]
  cases s.init <;> cases x
  case true.none => cases s.cfg.guardOrder <;> rfl
  case false.none | false.some | true.some => rfl

theorem reservedSelect_of_idle : reservedSelect s = .next (finished s r { status := some .badParameter }) := by
  rw [reservedSelect, whenIdle_of_idle hp, complete_eq_finished ho]

theorem exec_cksum_of_idle (f : Frame) : exec (.cksum f) s = .next (finished s r
    { status := some .success, cksum := some (BitVec.ofNat 8 (256 - sum7 f % 256)) }) := by
  rw [← cksum_eq_ofNat]
  exact (whenIdle_of_idle hp).trans (complete_eq_finished ho)

theorem exec_validate_of_idle (f : Frame) :
    exec (.validate f) s = .next (finished s r { status := some .success, valid := some (intact f) }) := by
  rw [← valid_eq_intact]
  exact (whenIdle_of_idle hp).trans (complete_eq_finished ho)

theorem exec_build_of_idle (k : Byte) (pp : Bool) (n : Byte) (p : Payload) :
    exec (.build k pp n p) s = .next (finished s r
      (if sendable s.cfg.acceptRange k pp n then { status := some .success, frame := some (payloadFrame k p n.toNat) }
      else { status := some .badParameter })) := by
  refine (whenIdle_of_idle hp).trans ?_
  rw [encoderGuard_eq_paramCheck, ← assemble_eq_payloadFrame]
  cases sendable s.cfg.acceptRange k pp n
  case true => exact complete_eq_finished ho
  case false => exact complete_eq_finished ho

theorem exec_parse_of_idle (f : Frame) : exec (.parse f) s = .next (finished s r
    { status := some .success, ppm := some (ppmOf f), valid := some (intact f) }) := by
  rw [← valid_eq_intact]
  exact (whenIdle_of_idle hp).trans (complete_eq_finished ho)

end Idle

end Sys2Proof.Machine

/-! ### The obligations of the encoding family -/

namespace Sys2Proof.Proofs

open Machine Claims

/-- Settles O1, by the rows of the table: a request's operands are the bytes joined in its fields, and a frame's row is the
narrowest one. -/
theorem decodeOfEncodeIsTheInstruction : Obligations.DecodeOfEncodeIsTheInstruction := by
  intro i hi
  cases i with
  | send _ _ _ p | build _ _ _ p => simp [encode, decode, decodeRequest]
  | cksum f | validate f | parse f => simp [encode, decode, decodeRequest]
  | frameCalSpan v c => exact decodeWrite_calSpanFrame v c
  | frameSetAbc a c => exact decodeWrite_setAbcFrame a c
  | frameSetRange v c => exact decodeWrite_setRangeFrame v c
  | frameRequest k p c =>
    simp only [Instr.wellFormed, Bool.and_eq_true, Bool.not_eq_true'] at hi
    obtain ⟨-, hnarrow⟩ := hi
    exact (decodeWrite_requestFrame_iff k p c).mpr hnarrow
  | init _ | getGas _ | calZero | calSpan _ | setAbc _ | setRange _ | reserved7 | reservedC | reservedD | reservedE
  | reservedF | frameGetGas | frameCalZero | frameResponse _ => rfl

/-- Settles O2: the frame decodes by its first two bytes, and the row it decodes to spells it. -/
theorem framesCoreCanWriteDecodeWellFormed : Obligations.FramesCoreCanWriteDecodeWellFormed := by
  intro f h0 h1 h2 hsum
  have hstart : f.b0 = startMarker := BitVec.toNat_inj.mp h0
  have hdevice : f.b1 = deviceByte := BitVec.toNat_inj.mp h1
  obtain ⟨i, hi⟩ := decodeWrite_ok hstart hdevice
  exact ⟨i, hi, wellFormed_of_decodeWrite hi ((couldHaveWritten_iff f).mpr ⟨h0, h1, h2, hsum⟩), encode_of_decodeWrite hi⟩

/-- Settles O5: a byte cut out of a word is a quotient of its number, and the concentration joins two of them. -/
theorem operandBytesAreBigEndian : Obligations.OperandBytesAreBigEndian := by
  refine ⟨fun P => ⟨?_, ?_, ?_, ?_, ?_⟩, fun F i => ?_, fun v => ⟨?_, ?_⟩, fun v => ⟨rfl, ?_, ?_, ?_, ?_⟩, toNat_ppmOf⟩
  · exact toNat_extractByte_top (k := 32) P
  · exact toNat_extractByte P 24
  · exact toNat_extractByte P 16
  · exact toNat_extractByte P 8
  · exact toNat_extractByte_bottom P
  · rw [frame_get_ofBits, toNat_extractByte]
  · exact toNat_extractByte_top (k := 8) v
  · exact toNat_extractByte_bottom v
  · exact toNat_extractByte_top (k := 24) v
  · exact toNat_extractByte v 16
  · exact toNat_extractByte v 8
  · exact toNat_extractByte_bottom v

/-- Settles O25: each reserved op-select is the one meaning of R66. -/
theorem reservedSelectsCompleteWithBadParameter : Obligations.ReservedSelectsCompleteWithBadParameter := by
  intro s r hp ho i hi
  simp only [List.mem_cons, List.not_mem_nil, or_false] at hi
  obtain rfl | rfl | rfl | rfl | rfl := hi <;> exact reservedSelect_of_idle hp ho

/-- Settles O4, by the decoder's arm of each op-select. -/
theorem opSelectMapNamesTheOperations : Obligations.OpSelectMapNamesTheOperations := by
  intro r
  refine ⟨?_, ?_, ?_, ?_, ?_, ?_, ?_, ?_, ?_, ?_, ?_, ?_, ?_, ?_, ?_, ?_⟩ <;> intro hop <;>
    simp [decode, decodeRequest, hop, payload_ofBits_eq, frame_ofBits_eq]

/-- Settles O6: the words decode by evaluation. -/
theorem wordsOfTheSpecDecode : Obligations.WordsOfTheSpecDecode := by
  unfold Obligations.WordsOfTheSpecDecode
  decide

/-- Settles O19, by the range the selector names, if any: with one both checks decide, with none the parameter check
fails. -/
theorem setRangeIssuesOneOfThreeFrames : Obligations.SetRangeIssuesOneOfThreeFrames := by
  intro s r q hp ho
  refine (whenIdle_of_idle hp).trans ((checked_write ho).trans ?_)
  rw [rangeFrame_eq]
  cases rangeValue q with
  | none => cases s.init <;> rfl
  | some v => cases s.init <;> rfl

/-- Settles O26: the step runs what the op-select decodes to in the state with the request latched, and a completion there
is one of the state before. -/
theorem requestsWithoutATransferCompleteAtOnce : Obligations.RequestsWithoutATransferCompleteAtOnce := by
  intro s r rest hp hin
  obtain ⟨h0, -, -, -, -, -, -, h7, h8, h9, h10, h11, h12, h13, h14, h15⟩ := opSelectMapNamesTheOperations r
  have hidle : ((s.after rest).latch r).phase = .idle := hp
  have hlatched : ((s.after rest).latch r).opl = some r := rfl
  have runs {i : Instr} (h : decode (.request r) = .ok i) : step s = exec i ((s.after rest).latch r) :=
    stepRunsTheRequestedInstruction s r rest i hin h
  refine ⟨fun h => ?_, fun h => ?_, fun h => ?_, fun h => ?_, fun h => ?_, fun h => ?_⟩
  · exact (runs (h0 h)).trans (exec_init_of_idle hidle hlatched r.xfer)
  · have reserved := reservedSelectsCompleteWithBadParameter _ r hidle hlatched
    simp only [List.mem_cons, List.not_mem_nil, or_false] at h
    obtain h | h | h | h | h := h
    · exact (runs (h7 h)).trans (reserved _ (by simp))
    · exact (runs (h12 h)).trans (reserved _ (by simp))
    · exact (runs (h13 h)).trans (reserved _ (by simp))
    · exact (runs (h14 h)).trans (reserved _ (by simp))
    · exact (runs (h15 h)).trans (reserved _ (by simp))
  · exact (runs (h8 h)).trans (exec_cksum_of_idle hidle hlatched _)
  · exact (runs (h9 h)).trans (exec_validate_of_idle hidle hlatched _)
  · exact (runs (h10 h)).trans (exec_build_of_idle hidle hlatched ..)
  · rw [← ppmOf_frameOf]
    exact (runs (h11 h)).trans (exec_parse_of_idle hidle hlatched _)

end Sys2Proof.Proofs

/-! ## The codec family (40_codec_primitives.md): checksum, validator, encoder and parser, and the requests that run them -/

namespace Sys2Proof.Machine

open Claims

variable {f g : Frame}

/-! ### The checksum and the acceptance set as numbers (R72, R74) -/

theorem toNat_cksum (f : Frame) : (cksum f).toNat = (256 - sum7 f % 256) % 256 := by
  rw [cksum_eq_ofNat, BitVec.toNat_ofNat]

/-- The checksum reads offsets 1 to 7 through their sum mod 256 only (R81). -/
theorem cksum_congr (h : sum7 f % 256 = sum7 g % 256) : cksum f = cksum g := by
  rw [cksum_eq_ofNat, cksum_eq_ofNat, h]

theorem accepted_false_iff (k : Byte) : accepted false k = true ↔ k.toNat ∈ [0x86, 0x87, 0x88, 0x79] := by
  simp [accepted_eq_codeAccepted, codeAccepted, or_assoc]

/-! ### What makes a frame valid (R73, R78) -/

theorem valid_iff_sum8 (f : Frame) : valid f = true ↔ f.b0.toNat = 0xFF ∧ sum8 f % 256 = 0 := by
  simp [valid_eq_intact, intact]

theorem valid_assemble (k : Byte) (p : Payload) (n : Nat) : valid (assemble k p n) = true :=
  (valid_iff _).mpr ⟨assemble_b0 k p n, assemble_b8 k p n⟩

/-- The sum of all nine bytes. In it every offset counts alike, so one argument serves each offset and each reordering
(R80, R81). -/
def byteSum (f : Frame) : Nat := ∑ i, (f.get i).toNat

theorem byteSum_eq (f : Frame) : byteSum f = f.b0.toNat + sum8 f := by
  simp only [byteSum, Fin.sum_univ_succ, Fin.sum_univ_zero, Fin.reduceSucc, Frame.get, sum8, sum7, Nat.add_assoc,
    Nat.add_zero]

/-- A frame is valid when it has the start marker and its nine bytes sum to that marker mod 256. -/
theorem valid_iff_byteSum (f : Frame) : valid f = true ↔ f.b0.toNat = 0xFF ∧ byteSum f % 256 = 0xFF := by
  rw [valid_iff_sum8, byteSum_eq]
  omega

/-- Two frames that agree but at offset `i` have the same sum once that offset's bytes are exchanged. -/
theorem byteSum_add_of_agree {i : Fin 9} (h : ∀ j, j ≠ i → f.get j = g.get j) :
    byteSum f + (g.get i).toNat = byteSum g + (f.get i).toNat := by
  have hrest : ∑ j ∈ Finset.univ.erase i, (f.get j).toNat = ∑ j ∈ Finset.univ.erase i, (g.get j).toNat :=
    Finset.sum_congr rfl fun j hj => congrArg BitVec.toNat (h j (Finset.ne_of_mem_erase hj))
  rw [byteSum, byteSum, ← Finset.add_sum_erase _ _ (Finset.mem_univ i), hrest,
    ← Finset.add_sum_erase _ (fun j => (g.get j).toNat) (Finset.mem_univ i)]
  omega

theorem byteSum_permute (π : Equiv.Perm (Fin 9)) (h : ∀ i, g.get i = f.get (π i)) : byteSum g = byteSum f := by
  simp only [byteSum, h]
  exact Equiv.sum_comp π fun i => (f.get i).toNat

end Sys2Proof.Machine

/-! ### The obligations of the codec family -/

namespace Sys2Proof.Proofs

open Machine Claims

/-- Settles O7. -/
theorem checksumNegatesTheByteSum : Obligations.ChecksumNegatesTheByteSum := toNat_cksum

/-- Settles O8: the checksum is the negated sum, so the two cancel. -/
theorem checksumClosesTheSum : Obligations.ChecksumClosesTheSum := by
  refine fun f => ⟨?_, valid_iff_sum8 f⟩
  rw [toNat_cksum]
  omega

/-- Settles O9: assembly itself writes the start marker and the checksum, whichever arguments passed the guard. -/
theorem builtFramesAreValid : Obligations.BuiltFramesAreValid := fun _ k _ n p _ => valid_assemble k p n.toNat

/-- Settles O10: were both frames valid, their nine bytes would sum to the same mod 256, and with eight bytes equal so would
be the ninth. -/
theorem singleByteCorruptionIsDetected : Obligations.SingleByteCorruptionIsDetected := by
  intro f g i hf hne hagree
  rw [Bool.eq_false_iff]
  intro hg
  obtain ⟨-, hsumf⟩ := (valid_iff_byteSum f).mp hf
  obtain ⟨-, hsumg⟩ := (valid_iff_byteSum g).mp hg
  have hsum := byteSum_add_of_agree hagree
  apply hne
  have hltf := (f.get i).isLt
  have hltg := (g.get i).isLt
  apply BitVec.eq_of_toNat_eq
  omega

/-- Settles O11: the checksum and the sum of all nine bytes stay the same. -/
theorem sumPreservingChangesGoUndetected : Obligations.SumPreservingChangesGoUndetected := by
  refine ⟨fun f g h0 h8 hsum => ⟨cksum_congr hsum, ?_⟩, fun f g π h0 _ hperm => ?_, by decide⟩
  · rw [valid_iff, valid_iff, h0, h8, cksum_congr hsum]
    exact id
  · have hb0 : g.b0 = f.b0 := (hperm 0).trans (congrArg f.get h0)
    rw [valid_iff_byteSum, valid_iff_byteSum, byteSum_permute π hperm, hb0]
    exact id

/-- Settles O12. -/
theorem assembledFrameFollowsTheTemplate : Obligations.AssembledFrameFollowsTheTemplate :=
  fun k p n _ => assemble_eq_payloadFrame k p n

/-- Settles O13: with the parameter set the codes are those of R59. -/
theorem acceptanceSetOfTheEncoder : Obligations.AcceptanceSetOfTheEncoder :=
  fun k => ⟨accepted_false_iff k, knownCommand_iff k⟩

/-- Settles O20: the encoder's guard is the parameter check of the shared write. -/
theorem sendIssuesTheFrameTheGuardPasses : Obligations.SendIssuesTheFrameTheGuardPasses := by
  intro s r k pp n p hp ho
  refine (whenIdle_of_idle hp).trans ?_
  rw [encoderGuard_eq_paramCheck, assemble_eq_payloadFrame]
  exact checked_write ho

/-- Settles O21. -/
theorem cksumDrivesTheChecksum : Obligations.CksumDrivesTheChecksum := fun _ _ f hp ho => exec_cksum_of_idle hp ho f

/-- Settles O22. -/
theorem validateDrivesTheVerdict : Obligations.ValidateDrivesTheVerdict := fun _ _ f hp ho => exec_validate_of_idle hp ho f

/-- Settles O23. -/
theorem buildDrivesTheFrameTheGuardPasses : Obligations.BuildDrivesTheFrameTheGuardPasses :=
  fun _ _ k pp n p hp ho => exec_build_of_idle hp ho k pp n p

/-- Settles O24: the verdict is said as VALIDATE says it, the concentration with numbers. -/
theorem parseDrivesConcentrationAndVerdict : Obligations.ParseDrivesConcentrationAndVerdict := by
  intro s r f hp ho
  rw [← ppmOf_eq_ofNat]
  exact exec_parse_of_idle hp ho f

end Sys2Proof.Proofs

/-! ## The operations family (41_operations.md): the operations that reach the link, step by step and whole -/

namespace Sys2Proof.Machine

open Claims

variable {s t : State} {r : ReqPort} {st : ResultCode} {rx : Option Frame} {f g : Frame} {u : Transfer}
  {older new : List Transfer} {rest : List Event} {p : Resp}

/-! ### The commands of an idle CORE -/

/-- A command without a parameter check fails only for want of INIT (R92 to R94). -/
theorem checked_write_lifecycle (ho : s.opl = some r) :
    checked (mustBeInitialized s) none {} s (doWrite f s) = .next
      (if s.init = true then writing s f else finished s r { status := some .notInitialized }) := by
  refine (checked_write (ok := true) ho).trans ?_
  cases s.init <;> rfl

/-- The frame CAL_SPAN assembles is that of R93, its span bytes quotients (R68). -/
theorem assemble_span (v : BitVec 16) : assemble cmdSpan (spanPayload v) 2 = spanFrame v := by
  rw [assemble_eq_payloadFrame]
  simp [payloadFrame, spanFrame, spanPayload, hiByte, loByte, extractByte_eq_ofNat, cmdSpan]

section Idle

variable (hp : s.phase = .idle) (ho : s.opl = some r)
include hp ho

theorem exec_getGas_of_idle (present : Bool) :
    exec (.getGas present) s = .next
      (if s.init = true ∧ present = true then writing s gasFrame
      else finished s r
        { status := some (reportedFailure s.cfg.guardOrder s.init present), ppmWe := some false }) :=
  (whenIdle_of_idle hp).trans (checked_write ho)

theorem exec_calZero_of_idle :
    exec .calZero s = .next
      (if s.init = true then writing s ⟨0xFF, 0x01, 0x87, 0x00, 0x00, 0x00, 0x00, 0x00, 0x78⟩
      else finished s r { status := some .notInitialized }) :=
  (whenIdle_of_idle hp).trans (checked_write_lifecycle ho)

theorem exec_calSpan_of_idle (v : BitVec 16) :
    exec (.calSpan v) s = .next
      (if s.init = true then writing s (spanFrame v) else finished s r { status := some .notInitialized }) := by
  rw [← assemble_span]
  exact (whenIdle_of_idle hp).trans (checked_write_lifecycle ho)

theorem exec_setAbc_of_idle (e : Bool) :
    exec (.setAbc e) s = .next
      (if s.init = true then writing s (commandFrame 0x79 (if e then s.cfg.abcOn else 0) 0 0 0 0)
      else finished s r { status := some .notInitialized }) := by
  refine (whenIdle_of_idle hp).trans ?_
  rw [assemble_eq_payloadFrame]
  exact checked_write_lifecycle ho

end Idle

/-! ### The step that accepts a request -/

/-- What a one-write command does in the step that accepts it, from its frame, which it has exactly when its parameter check
passes (R87, R98). -/
def commandOutcome (s : State) (r : ReqPort) (o : Option Frame) : State :=
  match s.init, o with
  | true, some f => writing s f
  | i, o => finished s r { status := some (reportedFailure s.cfg.guardOrder i o.isSome) }

theorem commandOutcome_of_pass (hinit : s.init = true) : commandOutcome s r (some f) = writing s f := by
  simp only [commandOutcome, hinit]

theorem commandOutcome_of_failure {o : Option Frame} (h : s.init = false ∨ o = none) :
    commandOutcome s r o = finished s r { status := some (reportedFailure s.cfg.guardOrder s.init o.isSome) } := by
  unfold commandOutcome
  obtain h | rfl := h
  · rw [h]
  · cases s.init <;> rfl

/-- A command that has its frame fails only for want of INIT. -/
theorem commandOutcome_some :
    commandOutcome s r (some f) =
      if s.init = true then writing s f else finished s r { status := some .notInitialized } := by
  unfold commandOutcome
  cases s.init <;> rfl

/-- A frame behind a parameter check. -/
theorem commandOutcome_checked (ok : Bool) :
    commandOutcome s r (if ok = true then some f else none) =
      if s.init = true ∧ ok = true then writing s f
      else finished s r { status := some (reportedFailure s.cfg.guardOrder s.init ok) } := by
  unfold commandOutcome
  cases s.init <;> cases ok <;> rfl

/-- The five one-write commands run alike, each by the frame of its own rule (R92 to R96). -/
theorem exec_command_of_idle (hp : s.phase = .idle) (ho : s.opl = some r) (hlo : 2 ≤ r.op.toNat) (hhi : r.op.toNat ≤ 6) :
    exec (decodeRequest r) s = .next (commandOutcome s r (commandOf s.cfg r)) := by
  obtain ⟨-, -, h2, h3, h4, h5, h6, -⟩ := Proofs.opSelectMapNamesTheOperations r
  have runs {i : Instr} {u : State} (hdec : decode (.request r) = .ok i) (h : exec i s = .next u)
      (hframe : commandOutcome s r (commandOf s.cfg r) = u) :
      exec (decodeRequest r) s = .next (commandOutcome s r (commandOf s.cfg r)) := by
    rw [Except.ok.inj hdec, h, hframe]
  have opIs (n : BitVec 4) (h : r.op.toNat = n.toNat) : r.op = n := BitVec.eq_of_toNat_eq h
  obtain h | h | h | h | h : r.op.toNat = 2 ∨ r.op.toNat = 3 ∨ r.op.toNat = 4 ∨ r.op.toNat = 5 ∨ r.op.toNat = 6 := by
    omega
  · exact runs (h2 h) (exec_calZero_of_idle hp ho) (by simp [commandOf, opIs 0x2 h, commandOutcome_some])
  · exact runs (h3 h) (exec_calSpan_of_idle hp ho r.span) (by simp [commandOf, opIs 0x3 h, commandOutcome_some])
  · exact runs (h4 h) (exec_setAbc_of_idle hp ho r.abc) (by simp [commandOf, opIs 0x4 h, commandOutcome_some])
  · exact runs (u := commandOutcome s r (rangeFrame r.range)) (h5 h)
      (Proofs.setRangeIssuesOneOfThreeFrames s r r.range hp ho) (by simp [commandOf, opIs 0x5 h])
  · exact runs (h6 h) (Proofs.sendIssuesTheFrameTheGuardPasses s r r.code r.present r.size (payloadOf r.payload) hp ho)
      (by simp [commandOf, opIs 0x6 h, commandOutcome_checked])

/-- The step that accepts a command. -/
theorem step_command (hp : s.phase = .idle) (hin : s.inbox = .request r :: rest) (hlo : 2 ≤ r.op.toNat)
    (hhi : r.op.toNat ≤ 6) :
    step s = .next (commandOutcome ((s.after rest).latch r) r (commandOf s.cfg r)) :=
  (Proofs.stepRunsTheRequestedInstruction s r rest _ hin rfl).trans
    (exec_command_of_idle (s := (s.after rest).latch r) hp rfl hlo hhi)

theorem step_command_of_pass (hp : s.phase = .idle) (hin : s.inbox = .request r :: rest) (hlo : 2 ≤ r.op.toNat)
    (hhi : r.op.toNat ≤ 6) (hinit : s.init = true) (hf : commandOf s.cfg r = some f) :
    step s = .next (writing ((s.after rest).latch r) f) := by
  rw [step_command hp hin hlo hhi, hf]
  exact congrArg _ (commandOutcome_of_pass hinit)

theorem step_command_of_failure (hp : s.phase = .idle) (hin : s.inbox = .request r :: rest) (hlo : 2 ≤ r.op.toNat)
    (hhi : r.op.toNat ≤ 6) (hfail : s.init = false ∨ commandOf s.cfg r = none) :
    step s = .next (finished ((s.after rest).latch r) r
      { status := some (reportedFailure s.cfg.guardOrder s.init (commandOf s.cfg r).isSome) }) := by
  rw [step_command hp hin hlo hhi]
  exact congrArg _ (commandOutcome_of_failure hfail)

/-- The step that accepts a GET_GAS. -/
theorem step_getGas (hp : s.phase = .idle) (hin : s.inbox = .request r :: rest) (hop : r.op = opGetGas) :
    step s = .next
      (if s.init = true ∧ r.present = true then writing ((s.after rest).latch r) gasFrame
      else finished ((s.after rest).latch r) r
        { status := some (reportedFailure s.cfg.guardOrder s.init r.present), ppmWe := some false }) := by
  obtain ⟨-, h1, -⟩ := Proofs.opSelectMapNamesTheOperations r
  exact (Proofs.stepRunsTheRequestedInstruction s r rest _ hin (h1 (by rw [hop]; rfl))).trans
    (exec_getGas_of_idle (s := (s.after rest).latch r) hp rfl r.present)

/-! ### The step that takes LINK's answer -/

/-- `s` once the answer to its newest transfer `u` is taken: the status is sampled and the trace holds the answer (R32,
R49). -/
def State.answered (u : Transfer) (older : List Transfer) (st : ResultCode) (rx : Option Frame) (rest : List Event)
    (s : State) : State :=
  { s with
    inbox := rest
    xstatus := some st
    transfers := { u with outcome := .answered st rx } :: older }

/-- The answer to the transfer a busy CORE waits for runs the frame of that transfer. -/
theorem step_runs_newest_answer {i : Instr} (hi : Inv s) (hp : s.phase ≠ .idle) (hl : s.transfers = u :: older)
    (hin : s.inbox = .answer u.tag st rx :: rest)
    (hframe : (∃ f, u.kind = .write f ∧ rx = none ∧ decode (.linkWrite f) = .ok i) ∨
      ∃ g, u.kind = .read ∧ rx = some g ∧ decode (.linkRead g) = .ok i) :
    step s = exec i (s.answered u older st rx rest) := by
  have hfind : s.transfers.find? (fun t => t.tag == u.tag) = some u := by simp [hl]
  rw [Proofs.stepRunsTheAnsweredFrame s u.tag st rx rest u i hin hfind (hi.newest_pending hp hl) hframe, hl,
    settle_newest (hl ▸ hi.numbered)]
  rfl

/-- The answer to a write: GET_GAS goes on to its read on Success, anything else completes (R26, R89, R91). -/
theorem step_answered_write (hi : Inv s) (hp : s.phase = .waitWrite) (hl : s.transfers = u :: older)
    (hin : s.inbox = .answer u.tag st none :: rest) (ho : s.opl = some r) (hset : InSet s.cfg.policy st) :
    step s = .next
      (if r.op = opGetGas then
        if st = .success then reading (s.answered u older st none rest)
        else finished (s.answered u older st none rest) r { status := some st, ppmWe := some false }
      else finished (s.answered u older st none rest) r { status := some st }) := by
  have hbusy : s.phase ≠ .idle := by simp [hp]
  have hm : u ∈ s.transfers := hl ▸ List.mem_cons_self
  obtain ⟨-, -, ⟨-, f, htx, hk⟩ | ⟨hr, -⟩⟩ := pending_is_newest hi hm (hi.newest_pending hbusy hl)
  · obtain ⟨hstart, hdevice, -⟩ := (couldHaveWritten_iff f).mp ((hi.proper u hm).2 f hk)
    obtain ⟨i, hdec⟩ := decodeWrite_ok (BitVec.toNat_inj.mp hstart) (BitVec.toNat_inj.mp hdevice)
    rw [step_runs_newest_answer hi hbusy hl hin (.inl ⟨f, hk, rfl, hdec⟩), exec_of_decodeWrite hdec,
      finishWrite_answered (s := s.answered u older st none rest) hp htx rfl (inResultSet_iff.mpr hset)]
    exact afterWrite_of_latched ho
  · nomatch hp.symm.trans hr

/-- The answer to a read ends GET_GAS (R91). -/
theorem step_answered_read (hi : Inv s) (hp : s.phase = .waitRead) (hl : s.transfers = u :: older)
    (hk : u.kind = .read) (hin : s.inbox = .answer u.tag st (some g) :: rest) (ho : s.opl = some r)
    (hset : InSet s.cfg.policy st) :
    step s = .next (finished (s.answered u older st (some g) rest) r (gasResponse s.cfg st g)) := by
  rw [step_runs_newest_answer hi (by simp [hp]) hl hin (.inr ⟨g, hk, rfl, rfl⟩)]
  exact (Proofs.responseFrameEndsGetGas _ g).1 r st hp ho rfl hset

/-! ### Whole operations -/

/-- A run begins with its first step. -/
theorem run_succ_of_next {M : Host.Core} {a b : M.State} {k : Nat} (h : M.step a = .next b) :
    M.run (k + 1) a = M.run k b := by
  rw [Host.Core.run, h]

theorem run_succ_of_step {k : Nat} (h : step s = .next t) : core.run (k + 1) s = core.run k t :=
  run_succ_of_next (M := core) h

/-- A sound idle CORE holds nothing, so what a completion clears was clear before the operation (R97). -/
theorem finished_eq_served (hi : Inv s) (hp : s.phase = .idle) :
    finished { s.after rest with transfers := new ++ s.transfers } r p = served s rest r p new := by
  obtain ⟨hopl, htx⟩ := hi.idleClear hp
  obtain ⟨hrx, hxs⟩ := hi.scratchClear
  simp only [finished, served, State.after, hp, hopl, htx, hrx, hxs]

end Sys2Proof.Machine

/-! ### The obligations of the operations family -/

namespace Sys2Proof.Proofs

open Machine Claims

/-- Settles O17. -/
theorem getGasIssuesItsFrameOrFailsACheck : Obligations.GetGasIssuesItsFrameOrFailsACheck :=
  fun _ _ present hp ho => exec_getGas_of_idle hp ho present

/-- Settles O18. -/
theorem calibrationAndAbcIssueTheirFrames : Obligations.CalibrationAndAbcIssueTheirFrames :=
  fun _ _ hp ho => ⟨exec_calZero_of_idle hp ho, exec_calSpan_of_idle hp ho, exec_setAbc_of_idle hp ho⟩

/-- Settles O36: a command that passes its checks waits on its write, which LINK's answer completes; one that does not
completes at once. -/
theorem commandsWriteOneFrameAndReturnLinksStatus : Obligations.CommandsWriteOneFrameAndReturnLinksStatus := by
  intro s r rest hi hp hlo hhi
  refine ⟨fun f hinit hf st hset hin => ?_, fun hfail hin => ?_⟩
  · have hother : r.op ≠ opGetGas := fun h => absurd (h ▸ hlo) (by decide)
    have hwrite := step_command_of_pass hp hin hlo hhi hinit hf
    have hend := step_answered_write (inv_step hi hwrite) rfl rfl rfl rfl hset
    rw [if_neg hother] at hend
    rw [run_succ_of_step hwrite, run_succ_of_step hend]
    exact congrArg _ (finished_eq_served (new := [written s s.transfers.length f st]) hi hp)
  · rw [run_succ_of_step (step_command_of_failure hp hin hlo hhi hfail)]
    exact congrArg _ (finished_eq_served (new := []) hi hp)

/-- Settles O37: GET_GAS fails a check at once, ends with its write unless that succeeds, and otherwise with its read. -/
theorem getGasWritesReadsAndExtracts : Obligations.GetGasWritesReadsAndExtracts := by
  intro s r rest hi hp (hop : r.op = opGetGas)
  refine ⟨fun hfail hin => ?_, fun hinit hpresent => ⟨fun st hst hset hin => ?_, fun st g hset hin => ?_⟩⟩
  · have hcomplete := step_getGas hp hin hop
    rw [if_neg (by simpa [or_iff_not_imp_left] using hfail)] at hcomplete
    rw [run_succ_of_step hcomplete]
    exact congrArg _ (finished_eq_served (new := []) hi hp)
  · have hwrite := step_getGas hp hin hop
    rw [if_pos ⟨hinit, hpresent⟩] at hwrite
    have hend := step_answered_write (inv_step hi hwrite) rfl rfl rfl rfl hset
    rw [if_pos hop, if_neg hst] at hend
    rw [run_succ_of_step hwrite, run_succ_of_step hend]
    exact congrArg _ (finished_eq_served (new := [written s s.transfers.length gasFrame st]) hi hp)
  · have hwrite := step_getGas hp hin hop
    rw [if_pos ⟨hinit, hpresent⟩] at hwrite
    have hwaiting := inv_step hi hwrite
    have hread := step_answered_write hwaiting rfl rfl rfl rfl (fun h => nomatch h)
    rw [if_pos hop, if_pos rfl] at hread
    have hend := step_answered_read (inv_step hwaiting hread) rfl rfl rfl rfl rfl hset
    rw [run_succ_of_step hwrite, run_succ_of_step hread, run_succ_of_step hend]
    exact congrArg _ (finished_eq_served
      (new := [{ tag := s.transfers.length + 1, link := s.xfer, kind := .read, outcome := .answered st (some g) },
        written s s.transfers.length gasFrame .success]) hi hp)

/-- Settles O43: a step that records a pair is a completion, which clears what CORE holds; only a binding INIT writes INIT
and XFER. -/
theorem completionLeavesNothingBehind : Obligations.CompletionLeavesNothingBehind := by
  intro s t hi h hrecorded
  cases step_next hi h with
  | completes _ _ _ _ _ _ ht | ends _ _ _ _ _ _ _ _ _ _ _ _ _ _ _ ht | extracts _ _ _ _ _ _ _ _ _ _ _ _ _ _ ht =>
    subst ht
    exact ⟨rfl, rfl, rfl, rfl, _, rfl, rfl, .inl ⟨rfl, rfl⟩⟩
  | binds _ _ _ _ _ hop _ _ ht =>
    subst ht
    exact ⟨rfl, rfl, rfl, rfl, _, rfl, rfl, .inr ⟨hop, rfl⟩⟩
  | waits _ ht | writes _ _ _ _ _ _ _ _ ht | reads _ _ _ _ _ _ _ _ _ _ _ ht | discards _ _ _ _ _ _ _ _ _ ht
  | hostReads _ _ _ _ ht | resets _ _ ht =>
    subst ht
    exact absurd rfl hrecorded

end Sys2Proof.Proofs

/-! ## The exceptions family (60_exceptions.md): the numbers of the result codes -/

namespace Sys2Proof

/-- Of the eight values of `resp.status`, 7 alone is no code's number (R99). -/
theorem ResultCode.ofBits_eq_none_iff (v : BitVec 3) : ResultCode.ofBits v = none ↔ v.toNat = 7 := by
  constructor
  · intro hnone
    unfold ResultCode.ofBits at hnone
    split_ifs at hnone
    bv_omega
  · intro h7
    rw [show v = 7#3 from BitVec.eq_of_toNat_eq h7]
    rfl

end Sys2Proof

/-! ### The obligation of the exceptions family -/

namespace Sys2Proof.Proofs

/-- Settles O15: the table of R99 by evaluation, and the two directions of reading a number. -/
theorem resultCodesHaveTheirNumbers : Obligations.ResultCodesHaveTheirNumbers :=
  ⟨rfl, ResultCode.ofBits_toBits, ResultCode.ofBits_eq_none_iff⟩

end Sys2Proof.Proofs

/-! ## The reset and hazards family (70_reset_and_hazards.md): abandoned transfers and the end of a run -/

namespace Sys2Proof.Machine

open Claims

variable {s t u : State} {v : Transfer} {newer older l : List Transfer} {st : ResultCode} {rx : Option Frame}
  {obs : Observation} {k n : Nat}

/-! ### What a reset does to the link trace (R116) -/

theorem abandon_of_pending (h : v.outcome = .pending) : v.abandon = { v with outcome := .abandoned } := if_pos h

theorem abandon_of_settled (h : v.outcome ≠ .pending) : v.abandon = v := if_neg h

theorem map_abandon_of_settled (h : ∀ v ∈ l, v.outcome ≠ .pending) : l.map Transfer.abandon = l :=
  (List.map_congr_left fun v hv => abandon_of_settled (h v hv)).trans l.map_id

/-- In a busy CORE's trace a reset marks the newest entry abandoned and leaves the others as they are. -/
theorem Inv.map_abandon (hi : Inv s) (hp : s.phase ≠ .idle) (hl : s.transfers = v :: older) :
    s.transfers.map Transfer.abandon = { v with outcome := .abandoned } :: older := by
  rw [hl, List.map_cons, abandon_of_pending (hi.newest_pending hp hl), map_abandon_of_settled (hi.settled_older hp hl)]

/-! ### LINK's late answer (R116) -/

/-- Every number in a trace is below its length (R49). -/
theorem Numbered.tag_lt_length (hn : Numbered l) (hm : v ∈ l) : v.tag < l.length := by
  have htag : v.tag ∈ l.map Transfer.tag := List.mem_map_of_mem hm
  rw [hn.map_tag] at htag
  simpa using htag

/-- A new outcome for one transfer changes its entry alone, wherever it stands. -/
theorem Numbered.map_resolve (o : TransferOutcome) (hn : Numbered (newer ++ v :: older)) :
    (newer ++ v :: older).map (Transfer.resolve v.tag o) = newer ++ { v with outcome := o } :: older := by
  induction newer with
  | nil => exact settle_newest hn o
  | cons w newer ih =>
    obtain ⟨hw, hrest⟩ := hn
    have hlt : v.tag < (newer ++ v :: older).length := hrest.tag_lt_length (by simp)
    have hne : w.tag ≠ v.tag := (hw ▸ hlt).ne'
    rw [List.cons_append, List.map_cons, resolve_of_ne hne, ih hrest, List.cons_append]

/-- An entry of a sound trace is the one found under its number. -/
theorem Inv.transfer?_of_mem (hi : Inv s) (hm : v ∈ s.transfers) : s.transfer? v.tag = some v := by
  cases hfind : s.transfer? v.tag with
  | none => exact absurd (List.find?_eq_none.mp hfind v hm) (by simp)
  | some w =>
    obtain ⟨hw, htag⟩ := mem_of_transfer? hfind
    rw [hi.numbered.eq_of_tag_eq hw hm htag]

/-- An answer has the form of its transfer when it brings bytes for a read and none for a write (R32). -/
theorem XferKind.fits_iff (kind : XferKind) : kind.fits rx = true ↔ rx.isSome = decide (kind = .read) := by
  cases kind <;> simp [XferKind.fits]

/-- The answer to an abandoned transfer is discarded (R116). -/
theorem takeEvent_abandoned_answer (hfind : s.transfer? v.tag = some v) (hab : v.outcome = .abandoned)
    (hfit : v.kind.fits rx = true) (hset : InSet s.cfg.policy st) :
    takeEvent (.answer v.tag st rx) s = .next (s.settle v.tag (.discarded st rx)) := by
  rw [takeEvent_late_answer fun w hw hpend => ?_]
  · exact lateAnswer_next.mpr ⟨v, hfind, hab, hfit, inResultSet_iff.mpr hset, rfl⟩
  · obtain rfl : v = w := Option.some.inj (hfind.symm.trans hw)
    simp [hab] at hpend

/-! ### Where a run ends (R126) -/

theorem runEnded_iff : s.runEnded = true ↔ Ended s := by
  have hinbox : s.inbox.any Event.isRequest = false ↔ ∀ r, .request r ∉ s.inbox := by
    rw [List.any_eq_false]
    constructor
    · exact fun h r hm => h _ hm rfl
    · intro h e hm
      cases e with
      | request r => exact absurd hm (h r)
      | answer _ _ _ | hostRead _ | reset => exact Bool.false_ne_true
  rw [State.runEnded, Bool.and_eq_true, Bool.not_eq_true', Bool.not_eq_true', hinbox, State.busy_eq_false, Ended]

theorem observe_eq_iff : s.observe = obs ↔ obs.exchanges = s.exchanges.reverse ∧
    obs.transfers = s.transfers.reverse ∧ obs.init = s.init ∧ obs.xfer = s.xfer := by
  cases obs
  simp only [State.observe, Observation.mk.injEq, eq_comm]

/-- A longer run is a step that answers a next state, and the run from there. -/
theorem run_succ_eq_next {M : Host.Core} {a b : M.State} :
    M.run (k + 1) a = .next b ↔ ∃ c, M.step a = .next c ∧ M.run k c = .next b := by
  rw [Host.Core.run]
  cases M.step a <;> simp

/-- The run from `s` reaches its end after exactly `k` steps, in `t`, and not before (R126). -/
def EndsAfter (k : Nat) (s t : State) : Prop :=
  core.run k s = .next t ∧ Ended t ∧ ∀ j u, j < k → core.run j s = .next u → ¬ Ended u

theorem endsAfter_zero : EndsAfter 0 s t ↔ t = s ∧ Ended s := by
  constructor
  · rintro ⟨hrun, hend, -⟩
    obtain rfl := Host.Outcome.next.inj hrun
    exact ⟨rfl, hend⟩
  · rintro ⟨rfl, hend⟩
    exact ⟨rfl, hend, fun _ _ hj => absurd hj (Nat.not_lt_zero _)⟩

theorem endsAfter_succ : EndsAfter (k + 1) s t ↔ ¬ Ended s ∧ ∃ u, step s = .next u ∧ EndsAfter k u t := by
  constructor
  · rintro ⟨hrun, hend, hfirst⟩
    obtain ⟨u, hstep, hrun⟩ := run_succ_eq_next.mp hrun
    exact ⟨hfirst 0 s k.succ_pos rfl, u, hstep, hrun, hend, fun j w hj hw =>
      hfirst (j + 1) w (Nat.succ_lt_succ hj) (run_succ_eq_next.mpr ⟨u, hstep, hw⟩)⟩
  · rintro ⟨hgoes, u, hstep, hrun, hend, hfirst⟩
    refine ⟨run_succ_eq_next.mpr ⟨u, hstep, hrun⟩, hend, fun j w hj hw => ?_⟩
    cases j with
    | zero => exact Host.Outcome.next.inj hw ▸ hgoes
    | succ j =>
      obtain ⟨u', hstep', hw⟩ := run_succ_eq_next.mp hw
      obtain rfl := Host.Outcome.next.inj (hstep.symm.trans hstep')
      exact hfirst j w (Nat.lt_of_succ_lt_succ hj) hw

/-- A run that has ended goes on no further. -/
theorem endsAfter_of_ended (h : Ended s) : EndsAfter k s t ↔ k = 0 ∧ t = s := by
  cases k with
  | zero => simp [endsAfter_zero, h]
  | succ k => simp [endsAfter_succ, h]

theorem observeRun_of_ended (h : Ended s) : observeRun n s = some s.observe := by
  cases n <;> exact if_pos (runEnded_iff.mpr h)

theorem observeRun_zero_of_not_ended (h : ¬ Ended s) : observeRun 0 s = none :=
  if_neg (mt runEnded_iff.mp h)

theorem observeRun_succ_of_not_ended (h : ¬ Ended s) :
    observeRun (n + 1) s = some obs ↔ ∃ u, step s = .next u ∧ observeRun n u = some obs := by
  rw [observeRun, if_neg (mt runEnded_iff.mp h), ← step]
  cases step s <;> simp

/-- The observation within `n` steps is that of the state in which the run ends, when it ends within them. -/
theorem observeRun_eq_some : observeRun n s = some obs ↔ ∃ k t, k ≤ n ∧ EndsAfter k s t ∧ t.observe = obs := by
  induction n generalizing s with
  | zero =>
    by_cases hend : Ended s
    · simp [observeRun_of_ended hend, endsAfter_of_ended hend]
    · simp [observeRun_zero_of_not_ended hend, endsAfter_zero, hend]
  | succ n ih =>
    by_cases hend : Ended s
    · simp [observeRun_of_ended hend, endsAfter_of_ended hend]
    · rw [observeRun_succ_of_not_ended hend, ← Nat.or_exists_add_one]
      simp only [ih, endsAfter_zero, endsAfter_succ, hend, and_false, false_and, exists_false, false_or,
        not_false_eq_true, true_and, Nat.add_le_add_iff_right]
      constructor
      · rintro ⟨u, hstep, k, t, hk, hends, hobs⟩
        exact ⟨k, t, hk, ⟨u, hstep, hends⟩, hobs⟩
      · rintro ⟨k, t, hk, ⟨u, hstep, hends⟩, hobs⟩
        exact ⟨u, hstep, k, t, hk, hends, hobs⟩

end Sys2Proof.Machine

/-! ### The obligations of the reset and hazards family -/

namespace Sys2Proof.Proofs

open Machine Claims

/-- Settles O35: a reset abandons the one pending entry, the newest; a late answer finds the entry of its number and changes
that entry alone. -/
theorem resetAbandonsTheOperationInProgress : Obligations.ResetAbandonsTheOperationInProgress := by
  refine ⟨fun s u older rest hi hp hl hin => ?_, fun s newer older u st rx rest hi hl hab hform hset hin => ?_⟩
  · exact ⟨(s.after rest).resetNow, step_cons hin, inv_resetNow (hi.after rest), rfl, rfl, rfl, rfl,
      hi.map_abandon hp hl⟩
  · have hfind : (s.after rest).transfer? u.tag = some u := (hi.after rest).transfer?_of_mem (by simp [State.after, hl])
    have htrace := (hl ▸ hi.numbered).map_resolve (.discarded st rx)
    rw [step_cons hin, ← htrace, ← hl]
    exact takeEvent_abandoned_answer (s := s.after rest) hfind hab ((XferKind.fits_iff _).mpr hform) hset

/-- Settles O51, by what is observed of a run within `n` steps. -/
theorem aRunIsObservedWhereItEnds : Obligations.ARunIsObservedWhereItEnds := by
  intro n s o
  simp only [observeRun_eq_some, EndsAfter, observe_eq_iff, and_assoc]
  rfl

/-- Settles O27: the request is latched and decodes to a request instruction, whatever its op-select; CORE is still
busy. -/
theorem requestWhileBusyFaults : Obligations.RequestWhileBusyFaults := by
  intro s r rest hp hin
  rw [step_cons hin, takeEvent, runWord_request]
  exact exec_request_busy (decodeRequest_isRequest r) (State.busy_eq_true.mpr hp)

end Sys2Proof.Proofs
